-- ==== Sys2Proof/Word.lean ====
section
/-! DEFINITION. The word types of the core and the index types of its register fields
(spec/00_scope.md R6: registers, CPSR, SPSRs and addresses are 32 bits wide; a byte is 8 bits, a halfword 16). -/

namespace Sys2Proof

/-- A 32-bit word: a register value or an address (R6). -/
abbrev Word := BitVec 32

/-- A 16-bit halfword: a THUMB instruction or a halfword of memory (R6). -/
abbrev Half := BitVec 16

/-- A byte of memory (R6). -/
abbrev Byte := BitVec 8

/-- An architectural register index, r0 to r15 (R21). -/
abbrev Reg := Fin 16

/-- A low register, r0 to r7, as a 3-bit THUMB field names it (R95, R320). -/
abbrev LowReg := Fin 8

end Sys2Proof
end

