-- ==== Sys2Proof/Syntax.lean ====
section
/-! DEFINITION. The instructions as a datatype: one constructor per row of spec/opcode_table.json (spec/30_encoding.md
R127), its arguments the row's fields as values of their own kind. An ARM instruction carries its condition; condition
field 1111 is no condition (R97) and is rejected by the decoder. THUMB constructors begin with t. -/

namespace Sys2Proof

/-- The fifteen conditions (R96). -/
inductive Cond where
  | eq | ne | cs | cc | mi | pl | vs | vc | hi | ls | ge | lt | gt | le | al
deriving DecidableEq, Repr

/-- The four shift types (R99). -/
inductive ShiftType where
  | lsl | lsr | asr | ror
deriving DecidableEq, Repr

/-- The instructions of both sets. Field names: `c` condition, `sb` the S bit, `p` pre-index, `up` the U bit, `w` writeback,
`ps` the PSR select bit, `mask` the field mask, `amount` and `ty` an immediate shift, `r` the extra register of PUSH and
POP; the rest as in R95. -/
inductive Instr where
  /-- AND with a rotated 8-bit immediate: ARM.dp_imm (R170). -/
  | andImm (c : Cond) (sb : Bool) (rn rd : Reg) (rot : BitVec 4) (imm8 : BitVec 8)
  /-- AND with a register shifted by an immediate amount: ARM.dp_reg_shift_imm (R170). -/
  | andShImm (c : Cond) (sb : Bool) (rn rd : Reg) (amount : BitVec 5) (ty : ShiftType) (rm : Reg)
  /-- AND with a register shifted by a register amount: ARM.dp_reg_shift_reg (R170). -/
  | andShReg (c : Cond) (sb : Bool) (rn rd rs : Reg) (ty : ShiftType) (rm : Reg)
  /-- EOR with a rotated 8-bit immediate: ARM.dp_imm (R171). -/
  | eorImm (c : Cond) (sb : Bool) (rn rd : Reg) (rot : BitVec 4) (imm8 : BitVec 8)
  /-- EOR with a register shifted by an immediate amount: ARM.dp_reg_shift_imm (R171). -/
  | eorShImm (c : Cond) (sb : Bool) (rn rd : Reg) (amount : BitVec 5) (ty : ShiftType) (rm : Reg)
  /-- EOR with a register shifted by a register amount: ARM.dp_reg_shift_reg (R171). -/
  | eorShReg (c : Cond) (sb : Bool) (rn rd rs : Reg) (ty : ShiftType) (rm : Reg)
  /-- SUB with a rotated 8-bit immediate: ARM.dp_imm (R172). -/
  | subImm (c : Cond) (sb : Bool) (rn rd : Reg) (rot : BitVec 4) (imm8 : BitVec 8)
  /-- SUB with a register shifted by an immediate amount: ARM.dp_reg_shift_imm (R172). -/
  | subShImm (c : Cond) (sb : Bool) (rn rd : Reg) (amount : BitVec 5) (ty : ShiftType) (rm : Reg)
  /-- SUB with a register shifted by a register amount: ARM.dp_reg_shift_reg (R172). -/
  | subShReg (c : Cond) (sb : Bool) (rn rd rs : Reg) (ty : ShiftType) (rm : Reg)
  /-- RSB with a rotated 8-bit immediate: ARM.dp_imm (R173). -/
  | rsbImm (c : Cond) (sb : Bool) (rn rd : Reg) (rot : BitVec 4) (imm8 : BitVec 8)
  /-- RSB with a register shifted by an immediate amount: ARM.dp_reg_shift_imm (R173). -/
  | rsbShImm (c : Cond) (sb : Bool) (rn rd : Reg) (amount : BitVec 5) (ty : ShiftType) (rm : Reg)
  /-- RSB with a register shifted by a register amount: ARM.dp_reg_shift_reg (R173). -/
  | rsbShReg (c : Cond) (sb : Bool) (rn rd rs : Reg) (ty : ShiftType) (rm : Reg)
  /-- ADD with a rotated 8-bit immediate: ARM.dp_imm (R174). -/
  | addImm (c : Cond) (sb : Bool) (rn rd : Reg) (rot : BitVec 4) (imm8 : BitVec 8)
  /-- ADD with a register shifted by an immediate amount: ARM.dp_reg_shift_imm (R174). -/
  | addShImm (c : Cond) (sb : Bool) (rn rd : Reg) (amount : BitVec 5) (ty : ShiftType) (rm : Reg)
  /-- ADD with a register shifted by a register amount: ARM.dp_reg_shift_reg (R174). -/
  | addShReg (c : Cond) (sb : Bool) (rn rd rs : Reg) (ty : ShiftType) (rm : Reg)
  /-- ADC with a rotated 8-bit immediate: ARM.dp_imm (R175). -/
  | adcImm (c : Cond) (sb : Bool) (rn rd : Reg) (rot : BitVec 4) (imm8 : BitVec 8)
  /-- ADC with a register shifted by an immediate amount: ARM.dp_reg_shift_imm (R175). -/
  | adcShImm (c : Cond) (sb : Bool) (rn rd : Reg) (amount : BitVec 5) (ty : ShiftType) (rm : Reg)
  /-- ADC with a register shifted by a register amount: ARM.dp_reg_shift_reg (R175). -/
  | adcShReg (c : Cond) (sb : Bool) (rn rd rs : Reg) (ty : ShiftType) (rm : Reg)
  /-- SBC with a rotated 8-bit immediate: ARM.dp_imm (R176). -/
  | sbcImm (c : Cond) (sb : Bool) (rn rd : Reg) (rot : BitVec 4) (imm8 : BitVec 8)
  /-- SBC with a register shifted by an immediate amount: ARM.dp_reg_shift_imm (R176). -/
  | sbcShImm (c : Cond) (sb : Bool) (rn rd : Reg) (amount : BitVec 5) (ty : ShiftType) (rm : Reg)
  /-- SBC with a register shifted by a register amount: ARM.dp_reg_shift_reg (R176). -/
  | sbcShReg (c : Cond) (sb : Bool) (rn rd rs : Reg) (ty : ShiftType) (rm : Reg)
  /-- RSC with a rotated 8-bit immediate: ARM.dp_imm (R177). -/
  | rscImm (c : Cond) (sb : Bool) (rn rd : Reg) (rot : BitVec 4) (imm8 : BitVec 8)
  /-- RSC with a register shifted by an immediate amount: ARM.dp_reg_shift_imm (R177). -/
  | rscShImm (c : Cond) (sb : Bool) (rn rd : Reg) (amount : BitVec 5) (ty : ShiftType) (rm : Reg)
  /-- RSC with a register shifted by a register amount: ARM.dp_reg_shift_reg (R177). -/
  | rscShReg (c : Cond) (sb : Bool) (rn rd rs : Reg) (ty : ShiftType) (rm : Reg)
  /-- TST with a rotated 8-bit immediate: ARM.dp_imm (R178). -/
  | tstImm (c : Cond) (rn rd : Reg) (rot : BitVec 4) (imm8 : BitVec 8)
  /-- TST with a register shifted by an immediate amount: ARM.dp_reg_shift_imm (R178). -/
  | tstShImm (c : Cond) (rn rd : Reg) (amount : BitVec 5) (ty : ShiftType) (rm : Reg)
  /-- TST with a register shifted by a register amount: ARM.dp_reg_shift_reg (R178). -/
  | tstShReg (c : Cond) (rn rd rs : Reg) (ty : ShiftType) (rm : Reg)
  /-- TEQ with a rotated 8-bit immediate: ARM.dp_imm (R179). -/
  | teqImm (c : Cond) (rn rd : Reg) (rot : BitVec 4) (imm8 : BitVec 8)
  /-- TEQ with a register shifted by an immediate amount: ARM.dp_reg_shift_imm (R179). -/
  | teqShImm (c : Cond) (rn rd : Reg) (amount : BitVec 5) (ty : ShiftType) (rm : Reg)
  /-- TEQ with a register shifted by a register amount: ARM.dp_reg_shift_reg (R179). -/
  | teqShReg (c : Cond) (rn rd rs : Reg) (ty : ShiftType) (rm : Reg)
  /-- CMP with a rotated 8-bit immediate: ARM.dp_imm (R180). -/
  | cmpImm (c : Cond) (rn rd : Reg) (rot : BitVec 4) (imm8 : BitVec 8)
  /-- CMP with a register shifted by an immediate amount: ARM.dp_reg_shift_imm (R180). -/
  | cmpShImm (c : Cond) (rn rd : Reg) (amount : BitVec 5) (ty : ShiftType) (rm : Reg)
  /-- CMP with a register shifted by a register amount: ARM.dp_reg_shift_reg (R180). -/
  | cmpShReg (c : Cond) (rn rd rs : Reg) (ty : ShiftType) (rm : Reg)
  /-- CMN with a rotated 8-bit immediate: ARM.dp_imm (R181). -/
  | cmnImm (c : Cond) (rn rd : Reg) (rot : BitVec 4) (imm8 : BitVec 8)
  /-- CMN with a register shifted by an immediate amount: ARM.dp_reg_shift_imm (R181). -/
  | cmnShImm (c : Cond) (rn rd : Reg) (amount : BitVec 5) (ty : ShiftType) (rm : Reg)
  /-- CMN with a register shifted by a register amount: ARM.dp_reg_shift_reg (R181). -/
  | cmnShReg (c : Cond) (rn rd rs : Reg) (ty : ShiftType) (rm : Reg)
  /-- ORR with a rotated 8-bit immediate: ARM.dp_imm (R182). -/
  | orrImm (c : Cond) (sb : Bool) (rn rd : Reg) (rot : BitVec 4) (imm8 : BitVec 8)
  /-- ORR with a register shifted by an immediate amount: ARM.dp_reg_shift_imm (R182). -/
  | orrShImm (c : Cond) (sb : Bool) (rn rd : Reg) (amount : BitVec 5) (ty : ShiftType) (rm : Reg)
  /-- ORR with a register shifted by a register amount: ARM.dp_reg_shift_reg (R182). -/
  | orrShReg (c : Cond) (sb : Bool) (rn rd rs : Reg) (ty : ShiftType) (rm : Reg)
  /-- MOV with a rotated 8-bit immediate: ARM.dp_imm (R183). -/
  | movImm (c : Cond) (sb : Bool) (rn rd : Reg) (rot : BitVec 4) (imm8 : BitVec 8)
  /-- MOV with a register shifted by an immediate amount: ARM.dp_reg_shift_imm (R183). -/
  | movShImm (c : Cond) (sb : Bool) (rn rd : Reg) (amount : BitVec 5) (ty : ShiftType) (rm : Reg)
  /-- MOV with a register shifted by a register amount: ARM.dp_reg_shift_reg (R183). -/
  | movShReg (c : Cond) (sb : Bool) (rn rd rs : Reg) (ty : ShiftType) (rm : Reg)
  /-- BIC with a rotated 8-bit immediate: ARM.dp_imm (R184). -/
  | bicImm (c : Cond) (sb : Bool) (rn rd : Reg) (rot : BitVec 4) (imm8 : BitVec 8)
  /-- BIC with a register shifted by an immediate amount: ARM.dp_reg_shift_imm (R184). -/
  | bicShImm (c : Cond) (sb : Bool) (rn rd : Reg) (amount : BitVec 5) (ty : ShiftType) (rm : Reg)
  /-- BIC with a register shifted by a register amount: ARM.dp_reg_shift_reg (R184). -/
  | bicShReg (c : Cond) (sb : Bool) (rn rd rs : Reg) (ty : ShiftType) (rm : Reg)
  /-- MVN with a rotated 8-bit immediate: ARM.dp_imm (R185). -/
  | mvnImm (c : Cond) (sb : Bool) (rn rd : Reg) (rot : BitVec 4) (imm8 : BitVec 8)
  /-- MVN with a register shifted by an immediate amount: ARM.dp_reg_shift_imm (R185). -/
  | mvnShImm (c : Cond) (sb : Bool) (rn rd : Reg) (amount : BitVec 5) (ty : ShiftType) (rm : Reg)
  /-- MVN with a register shifted by a register amount: ARM.dp_reg_shift_reg (R185). -/
  | mvnShReg (c : Cond) (sb : Bool) (rn rd rs : Reg) (ty : ShiftType) (rm : Reg)
  /-- MUL; the Rn field is not read: ARM.multiply (R203). -/
  | mul (c : Cond) (sb : Bool) (rd rn rs rm : Reg)
  /-- MLA: ARM.multiply (R204). -/
  | mla (c : Cond) (sb : Bool) (rd rn rs rm : Reg)
  /-- UMULL: ARM.multiply_long (R205). -/
  | umull (c : Cond) (sb : Bool) (rdHi rdLo rs rm : Reg)
  /-- UMLAL: ARM.multiply_long (R206). -/
  | umlal (c : Cond) (sb : Bool) (rdHi rdLo rs rm : Reg)
  /-- SMULL: ARM.multiply_long (R207). -/
  | smull (c : Cond) (sb : Bool) (rdHi rdLo rs rm : Reg)
  /-- SMLAL: ARM.multiply_long (R208). -/
  | smlal (c : Cond) (sb : Bool) (rdHi rdLo rs rm : Reg)
  /-- MRS: ARM.mrs (R222). -/
  | mrs (c : Cond) (ps : Bool) (rd : Reg)
  /-- MSR with a register operand: ARM.msr_reg (R224). -/
  | msrReg (c : Cond) (ps : Bool) (mask : BitVec 4) (rm : Reg)
  /-- MSR with an immediate operand: ARM.msr_imm (R225). -/
  | msrImm (c : Cond) (ps : Bool) (mask rot : BitVec 4) (imm8 : BitVec 8)
  /-- LDR, pre-indexed, an immediate offset: ARM.sdt_imm_pre (R246). -/
  | ldrImmPre (c : Cond) (up w : Bool) (rn rd : Reg) (imm12 : BitVec 12)
  /-- LDR, post-indexed, an immediate offset: ARM.sdt_imm_post (R246). -/
  | ldrImmPost (c : Cond) (up : Bool) (rn rd : Reg) (imm12 : BitVec 12)
  /-- LDRT, an immediate offset: ARM.sdt_imm_post_t (R251). -/
  | ldrtImm (c : Cond) (up : Bool) (rn rd : Reg) (imm12 : BitVec 12)
  /-- LDR, pre-indexed, a shifted register offset: ARM.sdt_reg_pre (R246). -/
  | ldrRegPre (c : Cond) (up w : Bool) (rn rd : Reg) (amount : BitVec 5) (ty : ShiftType) (rm : Reg)
  /-- LDR, post-indexed, a shifted register offset: ARM.sdt_reg_post (R246). -/
  | ldrRegPost (c : Cond) (up : Bool) (rn rd : Reg) (amount : BitVec 5) (ty : ShiftType) (rm : Reg)
  /-- LDRT, a shifted register offset: ARM.sdt_reg_post_t (R251). -/
  | ldrtReg (c : Cond) (up : Bool) (rn rd : Reg) (amount : BitVec 5) (ty : ShiftType) (rm : Reg)
  /-- STR, pre-indexed, an immediate offset: ARM.sdt_imm_pre (R247). -/
  | strImmPre (c : Cond) (up w : Bool) (rn rd : Reg) (imm12 : BitVec 12)
  /-- STR, post-indexed, an immediate offset: ARM.sdt_imm_post (R247). -/
  | strImmPost (c : Cond) (up : Bool) (rn rd : Reg) (imm12 : BitVec 12)
  /-- STRT, an immediate offset: ARM.sdt_imm_post_t (R253). -/
  | strtImm (c : Cond) (up : Bool) (rn rd : Reg) (imm12 : BitVec 12)
  /-- STR, pre-indexed, a shifted register offset: ARM.sdt_reg_pre (R247). -/
  | strRegPre (c : Cond) (up w : Bool) (rn rd : Reg) (amount : BitVec 5) (ty : ShiftType) (rm : Reg)
  /-- STR, post-indexed, a shifted register offset: ARM.sdt_reg_post (R247). -/
  | strRegPost (c : Cond) (up : Bool) (rn rd : Reg) (amount : BitVec 5) (ty : ShiftType) (rm : Reg)
  /-- STRT, a shifted register offset: ARM.sdt_reg_post_t (R253). -/
  | strtReg (c : Cond) (up : Bool) (rn rd : Reg) (amount : BitVec 5) (ty : ShiftType) (rm : Reg)
  /-- LDRB, pre-indexed, an immediate offset: ARM.sdt_imm_pre (R248). -/
  | ldrbImmPre (c : Cond) (up w : Bool) (rn rd : Reg) (imm12 : BitVec 12)
  /-- LDRB, post-indexed, an immediate offset: ARM.sdt_imm_post (R248). -/
  | ldrbImmPost (c : Cond) (up : Bool) (rn rd : Reg) (imm12 : BitVec 12)
  /-- LDRBT, an immediate offset: ARM.sdt_imm_post_t (R252). -/
  | ldrbtImm (c : Cond) (up : Bool) (rn rd : Reg) (imm12 : BitVec 12)
  /-- LDRB, pre-indexed, a shifted register offset: ARM.sdt_reg_pre (R248). -/
  | ldrbRegPre (c : Cond) (up w : Bool) (rn rd : Reg) (amount : BitVec 5) (ty : ShiftType) (rm : Reg)
  /-- LDRB, post-indexed, a shifted register offset: ARM.sdt_reg_post (R248). -/
  | ldrbRegPost (c : Cond) (up : Bool) (rn rd : Reg) (amount : BitVec 5) (ty : ShiftType) (rm : Reg)
  /-- LDRBT, a shifted register offset: ARM.sdt_reg_post_t (R252). -/
  | ldrbtReg (c : Cond) (up : Bool) (rn rd : Reg) (amount : BitVec 5) (ty : ShiftType) (rm : Reg)
  /-- STRB, pre-indexed, an immediate offset: ARM.sdt_imm_pre (R249). -/
  | strbImmPre (c : Cond) (up w : Bool) (rn rd : Reg) (imm12 : BitVec 12)
  /-- STRB, post-indexed, an immediate offset: ARM.sdt_imm_post (R249). -/
  | strbImmPost (c : Cond) (up : Bool) (rn rd : Reg) (imm12 : BitVec 12)
  /-- STRBT, an immediate offset: ARM.sdt_imm_post_t (R254). -/
  | strbtImm (c : Cond) (up : Bool) (rn rd : Reg) (imm12 : BitVec 12)
  /-- STRB, pre-indexed, a shifted register offset: ARM.sdt_reg_pre (R249). -/
  | strbRegPre (c : Cond) (up w : Bool) (rn rd : Reg) (amount : BitVec 5) (ty : ShiftType) (rm : Reg)
  /-- STRB, post-indexed, a shifted register offset: ARM.sdt_reg_post (R249). -/
  | strbRegPost (c : Cond) (up : Bool) (rn rd : Reg) (amount : BitVec 5) (ty : ShiftType) (rm : Reg)
  /-- STRBT, a shifted register offset: ARM.sdt_reg_post_t (R254). -/
  | strbtReg (c : Cond) (up : Bool) (rn rd : Reg) (amount : BitVec 5) (ty : ShiftType) (rm : Reg)
  /-- STRH, register offset: ARM.halfword_reg (R255). -/
  | strhReg (c : Cond) (p up w : Bool) (rn rd rm : Reg)
  /-- STRH, immediate offset: ARM.halfword_imm (R255). -/
  | strhImm (c : Cond) (p up w : Bool) (rn rd : Reg) (imm8 : BitVec 8)
  /-- LDRH, register offset: ARM.halfword_reg (R256). -/
  | ldrhReg (c : Cond) (p up w : Bool) (rn rd rm : Reg)
  /-- LDRH, immediate offset: ARM.halfword_imm (R256). -/
  | ldrhImm (c : Cond) (p up w : Bool) (rn rd : Reg) (imm8 : BitVec 8)
  /-- LDRSB, register offset: ARM.halfword_reg (R257). -/
  | ldrsbReg (c : Cond) (p up w : Bool) (rn rd rm : Reg)
  /-- LDRSB, immediate offset: ARM.halfword_imm (R257). -/
  | ldrsbImm (c : Cond) (p up w : Bool) (rn rd : Reg) (imm8 : BitVec 8)
  /-- LDRSH, register offset: ARM.halfword_reg (R258). -/
  | ldrshReg (c : Cond) (p up w : Bool) (rn rd rm : Reg)
  /-- LDRSH, immediate offset: ARM.halfword_imm (R258). -/
  | ldrshImm (c : Cond) (p up w : Bool) (rn rd : Reg) (imm8 : BitVec 8)
  /-- SWP: ARM.swap (R262). -/
  | swp (c : Cond) (rn rd rm : Reg)
  /-- SWPB: ARM.swap (R263). -/
  | swpb (c : Cond) (rn rd rm : Reg)
  /-- LDM (S = 0): ARM.block (R284). -/
  | ldm (c : Cond) (p up w : Bool) (rn : Reg) (list : BitVec 16)
  /-- LDM of the user bank (S = 1, r15 not listed): ARM.block_user_bank (R285). -/
  | ldmUser (c : Cond) (p up w : Bool) (rn : Reg) (list : BitVec 15)
  /-- LDM with CPSR restore (S = 1, r15 listed): ARM.block_cpsr_restore (R287). -/
  | ldmRestore (c : Cond) (p up w : Bool) (rn : Reg) (list : BitVec 15)
  /-- STM (S = 0): ARM.block (R286). -/
  | stm (c : Cond) (p up w : Bool) (rn : Reg) (list : BitVec 16)
  /-- STM of the user bank (S = 1): ARM.block_user_bank (R289). -/
  | stmUser (c : Cond) (p up w : Bool) (rn : Reg) (list : BitVec 16)
  /-- B: ARM.branch (R301). -/
  | b (c : Cond) (offset24 : BitVec 24)
  /-- BL: ARM.branch (R302). -/
  | bl (c : Cond) (offset24 : BitVec 24)
  /-- BX: ARM.branch_exchange (R303). -/
  | bx (c : Cond) (rn : Reg)
  /-- BLX (register), unallocated when `HAS_BLX` is false: ARM.branch_exchange (R304). -/
  | blx (c : Cond) (rn : Reg)
  /-- SWI; the core ignores the comment field: ARM.swi (R306). -/
  | swi (c : Cond) (comment24 : BitVec 24)
  /-- the architecturally undefined pattern: ARM.undefined (R308). -/
  | undefinedPattern (c : Cond)
  /-- LSL Rd, Rs, #imm5: THUMB.f1_shift_imm (R323). -/
  | tLslImm (amount : BitVec 5) (rs rd : LowReg)
  /-- LSR Rd, Rs, #imm5: THUMB.f1_shift_imm (R324). -/
  | tLsrImm (amount : BitVec 5) (rs rd : LowReg)
  /-- ASR Rd, Rs, #imm5: THUMB.f1_shift_imm (R325). -/
  | tAsrImm (amount : BitVec 5) (rs rd : LowReg)
  /-- ADD Rd, Rs, Rn: THUMB.f2_add_sub_reg (R326). -/
  | tAddReg (rn rs rd : LowReg)
  /-- SUB Rd, Rs, Rn: THUMB.f2_add_sub_reg (R327). -/
  | tSubReg (rn rs rd : LowReg)
  /-- ADD Rd, Rs, #imm3: THUMB.f2_add_sub_imm3 (R328). -/
  | tAddImm3 (imm3 : BitVec 3) (rs rd : LowReg)
  /-- SUB Rd, Rs, #imm3: THUMB.f2_add_sub_imm3 (R329). -/
  | tSubImm3 (imm3 : BitVec 3) (rs rd : LowReg)
  /-- MOV Rd, #imm8: THUMB.f3_imm8 (R330). -/
  | tMovImm (rd : LowReg) (imm8 : BitVec 8)
  /-- CMP Rd, #imm8: THUMB.f3_imm8 (R331). -/
  | tCmpImm (rd : LowReg) (imm8 : BitVec 8)
  /-- ADD Rd, #imm8: THUMB.f3_imm8 (R332). -/
  | tAddImm (rd : LowReg) (imm8 : BitVec 8)
  /-- SUB Rd, #imm8: THUMB.f3_imm8 (R333). -/
  | tSubImm (rd : LowReg) (imm8 : BitVec 8)
  /-- AND Rd, Rs (form 4): THUMB.f4_alu (R338). -/
  | tAnd (rs rd : LowReg)
  /-- EOR Rd, Rs (form 4): THUMB.f4_alu (R339). -/
  | tEor (rs rd : LowReg)
  /-- LSL Rd, Rs (form 4): THUMB.f4_alu (R334). -/
  | tLslReg (rs rd : LowReg)
  /-- LSR Rd, Rs (form 4): THUMB.f4_alu (R335). -/
  | tLsrReg (rs rd : LowReg)
  /-- ASR Rd, Rs (form 4): THUMB.f4_alu (R336). -/
  | tAsrReg (rs rd : LowReg)
  /-- ADC Rd, Rs (form 4): THUMB.f4_alu (R340). -/
  | tAdc (rs rd : LowReg)
  /-- SBC Rd, Rs (form 4): THUMB.f4_alu (R341). -/
  | tSbc (rs rd : LowReg)
  /-- ROR Rd, Rs (form 4): THUMB.f4_alu (R337). -/
  | tRorReg (rs rd : LowReg)
  /-- TST Rd, Rs (form 4): THUMB.f4_alu (R342). -/
  | tTst (rs rd : LowReg)
  /-- NEG Rd, Rs (form 4): THUMB.f4_alu (R343). -/
  | tNeg (rs rd : LowReg)
  /-- CMP Rd, Rs (form 4): THUMB.f4_alu (R344). -/
  | tCmpReg (rs rd : LowReg)
  /-- CMN Rd, Rs (form 4): THUMB.f4_alu (R345). -/
  | tCmn (rs rd : LowReg)
  /-- ORR Rd, Rs (form 4): THUMB.f4_alu (R346). -/
  | tOrr (rs rd : LowReg)
  /-- MUL Rd, Rs (form 4): THUMB.f4_alu (R347). -/
  | tMul (rs rd : LowReg)
  /-- BIC Rd, Rs (form 4): THUMB.f4_alu (R348). -/
  | tBic (rs rd : LowReg)
  /-- MVN Rd, Rs (form 4): THUMB.f4_alu (R349). -/
  | tMvn (rs rd : LowReg)
  /-- ADD Rd, Rs (hi registers): THUMB.f5_hi_reg (R353). -/
  | tAddHi (rd rs : Reg)
  /-- CMP Rd, Rs (hi registers): THUMB.f5_hi_reg (R354). -/
  | tCmpHi (rd rs : Reg)
  /-- MOV Rd, Rs (hi registers): THUMB.f5_hi_reg (R355). -/
  | tMovHi (rd rs : Reg)
  /-- BX Rs; bits 2:0 ignored: THUMB.f5_bx (R356). -/
  | tBx (rs : Reg)
  /-- LDR Rd, [PC, #imm]: THUMB.f6_pc_rel (R371). -/
  | tLdrPc (rd : LowReg) (word8 : BitVec 8)
  /-- STR Rd, [Rb, Ro]: THUMB.f7_reg_offset (R373). -/
  | tStrReg (ro rb rd : LowReg)
  /-- STRB Rd, [Rb, Ro]: THUMB.f7_reg_offset (R374). -/
  | tStrbReg (ro rb rd : LowReg)
  /-- LDR Rd, [Rb, Ro]: THUMB.f7_reg_offset (R375). -/
  | tLdrReg (ro rb rd : LowReg)
  /-- LDRB Rd, [Rb, Ro]: THUMB.f7_reg_offset (R376). -/
  | tLdrbReg (ro rb rd : LowReg)
  /-- STRH Rd, [Rb, Ro]: THUMB.f8_sign_ext (R378). -/
  | tStrhReg (ro rb rd : LowReg)
  /-- LDRH Rd, [Rb, Ro]: THUMB.f8_sign_ext (R379). -/
  | tLdrhReg (ro rb rd : LowReg)
  /-- LDSB Rd, [Rb, Ro]: THUMB.f8_sign_ext (R380). -/
  | tLdsb (ro rb rd : LowReg)
  /-- LDSH Rd, [Rb, Ro]: THUMB.f8_sign_ext (R381). -/
  | tLdsh (ro rb rd : LowReg)
  /-- STR Rd, [Rb, #imm]: THUMB.f9_imm_offset (R383). -/
  | tStrImm (offset5 : BitVec 5) (rb rd : LowReg)
  /-- LDR Rd, [Rb, #imm]: THUMB.f9_imm_offset (R384). -/
  | tLdrImm (offset5 : BitVec 5) (rb rd : LowReg)
  /-- STRB Rd, [Rb, #imm]: THUMB.f9_imm_offset (R385). -/
  | tStrbImm (offset5 : BitVec 5) (rb rd : LowReg)
  /-- LDRB Rd, [Rb, #imm]: THUMB.f9_imm_offset (R386). -/
  | tLdrbImm (offset5 : BitVec 5) (rb rd : LowReg)
  /-- STRH Rd, [Rb, #imm]: THUMB.f10_halfword (R388). -/
  | tStrhImm (offset5 : BitVec 5) (rb rd : LowReg)
  /-- LDRH Rd, [Rb, #imm]: THUMB.f10_halfword (R389). -/
  | tLdrhImm (offset5 : BitVec 5) (rb rd : LowReg)
  /-- STR Rd, [SP, #imm]: THUMB.f11_sp_rel (R391). -/
  | tStrSp (rd : LowReg) (word8 : BitVec 8)
  /-- LDR Rd, [SP, #imm]: THUMB.f11_sp_rel (R392). -/
  | tLdrSp (rd : LowReg) (word8 : BitVec 8)
  /-- ADD Rd, PC, #imm: THUMB.f12_rel_addr_pc (R360). -/
  | tAddPc (rd : LowReg) (word8 : BitVec 8)
  /-- ADD Rd, SP, #imm: THUMB.f12_rel_addr_sp (R361). -/
  | tAddSp (rd : LowReg) (word8 : BitVec 8)
  /-- ADD SP, #imm: THUMB.f13_sp_offset (R363). -/
  | tSpAdd (sword7 : BitVec 7)
  /-- ADD SP, #-imm: THUMB.f13_sp_offset_neg (R364). -/
  | tSpSub (sword7 : BitVec 7)
  /-- PUSH, a full-descending store: THUMB.f14_push_pop (R396). -/
  | tPush (r : Bool) (rlist : BitVec 8)
  /-- POP, the inverse of PUSH: THUMB.f14_push_pop (R397). -/
  | tPop (r : Bool) (rlist : BitVec 8)
  /-- STMIA Rb!: THUMB.f15_multiple (R401). -/
  | tStmia (rb : LowReg) (rlist : BitVec 8)
  /-- LDMIA Rb!: THUMB.f15_multiple (R402). -/
  | tLdmia (rb : LowReg) (rlist : BitVec 8)
  /-- BEQ label: THUMB.f16_cond_branch (R412). -/
  | tBeq (soffset8 : BitVec 8)
  /-- BNE label: THUMB.f16_cond_branch (R412). -/
  | tBne (soffset8 : BitVec 8)
  /-- BCS label: THUMB.f16_cond_branch (R412). -/
  | tBcs (soffset8 : BitVec 8)
  /-- BCC label: THUMB.f16_cond_branch (R412). -/
  | tBcc (soffset8 : BitVec 8)
  /-- BMI label: THUMB.f16_cond_branch (R412). -/
  | tBmi (soffset8 : BitVec 8)
  /-- BPL label: THUMB.f16_cond_branch (R412). -/
  | tBpl (soffset8 : BitVec 8)
  /-- BVS label: THUMB.f16_cond_branch (R412). -/
  | tBvs (soffset8 : BitVec 8)
  /-- BVC label: THUMB.f16_cond_branch (R412). -/
  | tBvc (soffset8 : BitVec 8)
  /-- BHI label: THUMB.f16_cond_branch (R412). -/
  | tBhi (soffset8 : BitVec 8)
  /-- BLS label: THUMB.f16_cond_branch (R412). -/
  | tBls (soffset8 : BitVec 8)
  /-- BGE label: THUMB.f16_cond_branch (R412). -/
  | tBge (soffset8 : BitVec 8)
  /-- BLT label: THUMB.f16_cond_branch (R412). -/
  | tBlt (soffset8 : BitVec 8)
  /-- BGT label: THUMB.f16_cond_branch (R412). -/
  | tBgt (soffset8 : BitVec 8)
  /-- BLE label: THUMB.f16_cond_branch (R412). -/
  | tBle (soffset8 : BitVec 8)
  /-- SWI; the core ignores the value: THUMB.f17_swi (R415). -/
  | tSwi (value8 : BitVec 8)
  /-- B label: THUMB.f18_branch (R417). -/
  | tB (offset11 : BitVec 11)
  /-- BL, high half: THUMB.f19_bl_high (R419). -/
  | tBlHigh (offset11 : BitVec 11)
  /-- BL, low half: THUMB.f19_bl_low (R420). -/
  | tBlLow (offset11 : BitVec 11)
  /-- BLX suffix, unallocated when `HAS_BLX` is false: THUMB.f19_blx_low (R421). -/
  | tBlxLow (offset11 : BitVec 11)
deriving DecidableEq, Repr

/-- The instruction belongs to the THUMB set (R90). -/
def Instr.isThumb : Instr → Bool
  | .andImm _ _ _ _ _ _ => false
  | .andShImm _ _ _ _ _ _ _ => false
  | .andShReg _ _ _ _ _ _ _ => false
  | .eorImm _ _ _ _ _ _ => false
  | .eorShImm _ _ _ _ _ _ _ => false
  | .eorShReg _ _ _ _ _ _ _ => false
  | .subImm _ _ _ _ _ _ => false
  | .subShImm _ _ _ _ _ _ _ => false
  | .subShReg _ _ _ _ _ _ _ => false
  | .rsbImm _ _ _ _ _ _ => false
  | .rsbShImm _ _ _ _ _ _ _ => false
  | .rsbShReg _ _ _ _ _ _ _ => false
  | .addImm _ _ _ _ _ _ => false
  | .addShImm _ _ _ _ _ _ _ => false
  | .addShReg _ _ _ _ _ _ _ => false
  | .adcImm _ _ _ _ _ _ => false
  | .adcShImm _ _ _ _ _ _ _ => false
  | .adcShReg _ _ _ _ _ _ _ => false
  | .sbcImm _ _ _ _ _ _ => false
  | .sbcShImm _ _ _ _ _ _ _ => false
  | .sbcShReg _ _ _ _ _ _ _ => false
  | .rscImm _ _ _ _ _ _ => false
  | .rscShImm _ _ _ _ _ _ _ => false
  | .rscShReg _ _ _ _ _ _ _ => false
  | .tstImm _ _ _ _ _ => false
  | .tstShImm _ _ _ _ _ _ => false
  | .tstShReg _ _ _ _ _ _ => false
  | .teqImm _ _ _ _ _ => false
  | .teqShImm _ _ _ _ _ _ => false
  | .teqShReg _ _ _ _ _ _ => false
  | .cmpImm _ _ _ _ _ => false
  | .cmpShImm _ _ _ _ _ _ => false
  | .cmpShReg _ _ _ _ _ _ => false
  | .cmnImm _ _ _ _ _ => false
  | .cmnShImm _ _ _ _ _ _ => false
  | .cmnShReg _ _ _ _ _ _ => false
  | .orrImm _ _ _ _ _ _ => false
  | .orrShImm _ _ _ _ _ _ _ => false
  | .orrShReg _ _ _ _ _ _ _ => false
  | .movImm _ _ _ _ _ _ => false
  | .movShImm _ _ _ _ _ _ _ => false
  | .movShReg _ _ _ _ _ _ _ => false
  | .bicImm _ _ _ _ _ _ => false
  | .bicShImm _ _ _ _ _ _ _ => false
  | .bicShReg _ _ _ _ _ _ _ => false
  | .mvnImm _ _ _ _ _ _ => false
  | .mvnShImm _ _ _ _ _ _ _ => false
  | .mvnShReg _ _ _ _ _ _ _ => false
  | .mul _ _ _ _ _ _ => false
  | .mla _ _ _ _ _ _ => false
  | .umull _ _ _ _ _ _ => false
  | .umlal _ _ _ _ _ _ => false
  | .smull _ _ _ _ _ _ => false
  | .smlal _ _ _ _ _ _ => false
  | .mrs _ _ _ => false
  | .msrReg _ _ _ _ => false
  | .msrImm _ _ _ _ _ => false
  | .ldrImmPre _ _ _ _ _ _ => false
  | .ldrImmPost _ _ _ _ _ => false
  | .ldrtImm _ _ _ _ _ => false
  | .ldrRegPre _ _ _ _ _ _ _ _ => false
  | .ldrRegPost _ _ _ _ _ _ _ => false
  | .ldrtReg _ _ _ _ _ _ _ => false
  | .strImmPre _ _ _ _ _ _ => false
  | .strImmPost _ _ _ _ _ => false
  | .strtImm _ _ _ _ _ => false
  | .strRegPre _ _ _ _ _ _ _ _ => false
  | .strRegPost _ _ _ _ _ _ _ => false
  | .strtReg _ _ _ _ _ _ _ => false
  | .ldrbImmPre _ _ _ _ _ _ => false
  | .ldrbImmPost _ _ _ _ _ => false
  | .ldrbtImm _ _ _ _ _ => false
  | .ldrbRegPre _ _ _ _ _ _ _ _ => false
  | .ldrbRegPost _ _ _ _ _ _ _ => false
  | .ldrbtReg _ _ _ _ _ _ _ => false
  | .strbImmPre _ _ _ _ _ _ => false
  | .strbImmPost _ _ _ _ _ => false
  | .strbtImm _ _ _ _ _ => false
  | .strbRegPre _ _ _ _ _ _ _ _ => false
  | .strbRegPost _ _ _ _ _ _ _ => false
  | .strbtReg _ _ _ _ _ _ _ => false
  | .strhReg _ _ _ _ _ _ _ => false
  | .strhImm _ _ _ _ _ _ _ => false
  | .ldrhReg _ _ _ _ _ _ _ => false
  | .ldrhImm _ _ _ _ _ _ _ => false
  | .ldrsbReg _ _ _ _ _ _ _ => false
  | .ldrsbImm _ _ _ _ _ _ _ => false
  | .ldrshReg _ _ _ _ _ _ _ => false
  | .ldrshImm _ _ _ _ _ _ _ => false
  | .swp _ _ _ _ => false
  | .swpb _ _ _ _ => false
  | .ldm _ _ _ _ _ _ => false
  | .ldmUser _ _ _ _ _ _ => false
  | .ldmRestore _ _ _ _ _ _ => false
  | .stm _ _ _ _ _ _ => false
  | .stmUser _ _ _ _ _ _ => false
  | .b _ _ => false
  | .bl _ _ => false
  | .bx _ _ => false
  | .blx _ _ => false
  | .swi _ _ => false
  | .undefinedPattern _ => false
  | .tLslImm _ _ _ => true
  | .tLsrImm _ _ _ => true
  | .tAsrImm _ _ _ => true
  | .tAddReg _ _ _ => true
  | .tSubReg _ _ _ => true
  | .tAddImm3 _ _ _ => true
  | .tSubImm3 _ _ _ => true
  | .tMovImm _ _ => true
  | .tCmpImm _ _ => true
  | .tAddImm _ _ => true
  | .tSubImm _ _ => true
  | .tAnd _ _ => true
  | .tEor _ _ => true
  | .tLslReg _ _ => true
  | .tLsrReg _ _ => true
  | .tAsrReg _ _ => true
  | .tAdc _ _ => true
  | .tSbc _ _ => true
  | .tRorReg _ _ => true
  | .tTst _ _ => true
  | .tNeg _ _ => true
  | .tCmpReg _ _ => true
  | .tCmn _ _ => true
  | .tOrr _ _ => true
  | .tMul _ _ => true
  | .tBic _ _ => true
  | .tMvn _ _ => true
  | .tAddHi _ _ => true
  | .tCmpHi _ _ => true
  | .tMovHi _ _ => true
  | .tBx _ => true
  | .tLdrPc _ _ => true
  | .tStrReg _ _ _ => true
  | .tStrbReg _ _ _ => true
  | .tLdrReg _ _ _ => true
  | .tLdrbReg _ _ _ => true
  | .tStrhReg _ _ _ => true
  | .tLdrhReg _ _ _ => true
  | .tLdsb _ _ _ => true
  | .tLdsh _ _ _ => true
  | .tStrImm _ _ _ => true
  | .tLdrImm _ _ _ => true
  | .tStrbImm _ _ _ => true
  | .tLdrbImm _ _ _ => true
  | .tStrhImm _ _ _ => true
  | .tLdrhImm _ _ _ => true
  | .tStrSp _ _ => true
  | .tLdrSp _ _ => true
  | .tAddPc _ _ => true
  | .tAddSp _ _ => true
  | .tSpAdd _ => true
  | .tSpSub _ => true
  | .tPush _ _ => true
  | .tPop _ _ => true
  | .tStmia _ _ => true
  | .tLdmia _ _ => true
  | .tBeq _ => true
  | .tBne _ => true
  | .tBcs _ => true
  | .tBcc _ => true
  | .tBmi _ => true
  | .tBpl _ => true
  | .tBvs _ => true
  | .tBvc _ => true
  | .tBhi _ => true
  | .tBls _ => true
  | .tBge _ => true
  | .tBlt _ => true
  | .tBgt _ => true
  | .tBle _ => true
  | .tSwi _ => true
  | .tB _ => true
  | .tBlHigh _ => true
  | .tBlLow _ => true
  | .tBlxLow _ => true

end Sys2Proof
end

