-- ==== Sys2Proof/Decode.lean ====
section
/-! DEFINITION. Decoding and encoding (spec/30_encoding.md). Decoding looks a word up in the rows of
spec/opcode_table.json: a word selects a row when word AND mask = match (R127), and the row's fields give the instruction.
A word that selects no row is rejected by name: condition field 1111 first (R97), else unallocated (R112, R122).
The encoder is written from the same rows, after the decoder. -/

namespace Sys2Proof

/-! ## Fields -/

/-- Bits of a word: `len` of them from bit `lo` (R10). -/
def field {n : Nat} (w : BitVec n) (lo len : Nat) : BitVec len := w.extractLsb' lo len

/-- One bit as a Boolean. -/
def bit {n : Nat} (w : BitVec n) (k : Nat) : Bool := field w k 1 == 1#1

/-- A 4-bit register field (R95). -/
def reg {n : Nat} (w : BitVec n) (lo : Nat) : Reg := (field w lo 4).toFin

/-- A 3-bit register field (R95). -/
def low {n : Nat} (w : BitVec n) (lo : Nat) : LowReg := (field w lo 3).toFin

/-- A THUMB form 5 register: `H ++ Rs`, the H bit at `h`, the three low bits from `lo` (R115, R352). -/
def hiReg {n : Nat} (w : BitVec n) (h lo : Nat) : Reg := (field w h 1 ++ field w lo 3).toFin

/-- The shift type of a 2-bit field (R99). -/
def ShiftType.ofBits (b : BitVec 2) : ShiftType :=
  if b = 0b00 then .lsl else if b = 0b01 then .lsr else if b = 0b10 then .asr else .ror

/-- The 2-bit field of a shift type (R99). -/
def ShiftType.bits : ShiftType → BitVec 2
  | .lsl => 0b00
  | .lsr => 0b01
  | .asr => 0b10
  | .ror => 0b11

/-- A shift type field. -/
def shiftType {n : Nat} (w : BitVec n) (lo : Nat) : ShiftType := ShiftType.ofBits (field w lo 2)

/-- The 4-bit field of a condition (R96). -/
def Cond.bits : Cond → BitVec 4
  | .eq => 0b0000
  | .ne => 0b0001
  | .cs => 0b0010
  | .cc => 0b0011
  | .mi => 0b0100
  | .pl => 0b0101
  | .vs => 0b0110
  | .vc => 0b0111
  | .hi => 0b1000
  | .ls => 0b1001
  | .ge => 0b1010
  | .lt => 0b1011
  | .gt => 0b1100
  | .le => 0b1101
  | .al => 0b1110

/-- The condition of a 4-bit field; none for 1111 (R96, R97). -/
def Cond.ofBits (b : BitVec 4) : Option Cond :=
  if b = 0b0000 then some .eq else if b = 0b0001 then some .ne
  else if b = 0b0010 then some .cs else if b = 0b0011 then some .cc
  else if b = 0b0100 then some .mi else if b = 0b0101 then some .pl
  else if b = 0b0110 then some .vs else if b = 0b0111 then some .vc
  else if b = 0b1000 then some .hi else if b = 0b1001 then some .ls
  else if b = 0b1010 then some .ge else if b = 0b1011 then some .lt
  else if b = 0b1100 then some .gt else if b = 0b1101 then some .le
  else if b = 0b1110 then some .al else none

/-! ## Rows -/

/-- A row of the opcode table: `build` makes the instruction of a word that selects the row. -/
structure Row (n : Nat) (β : Type) where
  mask : BitVec n
  bits : BitVec n
  build : β

/-- A word selects a row (R127). -/
def Row.hits {n : Nat} {β : Type} (r : Row n β) (w : BitVec n) : Bool := w &&& r.mask == r.bits

/-- The first row a word selects; no word selects two (R127). -/
def lookup {n : Nat} {β : Type} (rows : List (Row n β)) (w : BitVec n) : Option (Row n β) :=
  rows.find? fun r => r.hits w

/-- A row of the ARM set: every ARM word also has a condition (R91, R127). -/
abbrev ArmRow := Row 32 (Cond → Word → Instr)

/-- A row of the THUMB set. -/
abbrev ThumbRow := Row 16 (Half → Instr)

/-- AND, ARM.dp_imm (R170). -/
def rowAndImm : ArmRow :=
  ⟨0x0FE00000, 0x02000000, fun c w => .andImm c (bit w 20) (reg w 16) (reg w 12) (field w 8 4) (field w 0 8)⟩

/-- AND, ARM.dp_reg_shift_imm (R170). -/
def rowAndShImm : ArmRow :=
  ⟨0x0FE00010, 0x00000000, fun c w => .andShImm c (bit w 20) (reg w 16) (reg w 12) (field w 7 5) (shiftType w 5) (reg w 0)⟩

/-- AND, ARM.dp_reg_shift_reg (R170). -/
def rowAndShReg : ArmRow :=
  ⟨0x0FE00090, 0x00000010, fun c w => .andShReg c (bit w 20) (reg w 16) (reg w 12) (reg w 8) (shiftType w 5) (reg w 0)⟩

/-- EOR, ARM.dp_imm (R171). -/
def rowEorImm : ArmRow :=
  ⟨0x0FE00000, 0x02200000, fun c w => .eorImm c (bit w 20) (reg w 16) (reg w 12) (field w 8 4) (field w 0 8)⟩

/-- EOR, ARM.dp_reg_shift_imm (R171). -/
def rowEorShImm : ArmRow :=
  ⟨0x0FE00010, 0x00200000, fun c w => .eorShImm c (bit w 20) (reg w 16) (reg w 12) (field w 7 5) (shiftType w 5) (reg w 0)⟩

/-- EOR, ARM.dp_reg_shift_reg (R171). -/
def rowEorShReg : ArmRow :=
  ⟨0x0FE00090, 0x00200010, fun c w => .eorShReg c (bit w 20) (reg w 16) (reg w 12) (reg w 8) (shiftType w 5) (reg w 0)⟩

/-- SUB, ARM.dp_imm (R172). -/
def rowSubImm : ArmRow :=
  ⟨0x0FE00000, 0x02400000, fun c w => .subImm c (bit w 20) (reg w 16) (reg w 12) (field w 8 4) (field w 0 8)⟩

/-- SUB, ARM.dp_reg_shift_imm (R172). -/
def rowSubShImm : ArmRow :=
  ⟨0x0FE00010, 0x00400000, fun c w => .subShImm c (bit w 20) (reg w 16) (reg w 12) (field w 7 5) (shiftType w 5) (reg w 0)⟩

/-- SUB, ARM.dp_reg_shift_reg (R172). -/
def rowSubShReg : ArmRow :=
  ⟨0x0FE00090, 0x00400010, fun c w => .subShReg c (bit w 20) (reg w 16) (reg w 12) (reg w 8) (shiftType w 5) (reg w 0)⟩

/-- RSB, ARM.dp_imm (R173). -/
def rowRsbImm : ArmRow :=
  ⟨0x0FE00000, 0x02600000, fun c w => .rsbImm c (bit w 20) (reg w 16) (reg w 12) (field w 8 4) (field w 0 8)⟩

/-- RSB, ARM.dp_reg_shift_imm (R173). -/
def rowRsbShImm : ArmRow :=
  ⟨0x0FE00010, 0x00600000, fun c w => .rsbShImm c (bit w 20) (reg w 16) (reg w 12) (field w 7 5) (shiftType w 5) (reg w 0)⟩

/-- RSB, ARM.dp_reg_shift_reg (R173). -/
def rowRsbShReg : ArmRow :=
  ⟨0x0FE00090, 0x00600010, fun c w => .rsbShReg c (bit w 20) (reg w 16) (reg w 12) (reg w 8) (shiftType w 5) (reg w 0)⟩

/-- ADD, ARM.dp_imm (R174). -/
def rowAddImm : ArmRow :=
  ⟨0x0FE00000, 0x02800000, fun c w => .addImm c (bit w 20) (reg w 16) (reg w 12) (field w 8 4) (field w 0 8)⟩

/-- ADD, ARM.dp_reg_shift_imm (R174). -/
def rowAddShImm : ArmRow :=
  ⟨0x0FE00010, 0x00800000, fun c w => .addShImm c (bit w 20) (reg w 16) (reg w 12) (field w 7 5) (shiftType w 5) (reg w 0)⟩

/-- ADD, ARM.dp_reg_shift_reg (R174). -/
def rowAddShReg : ArmRow :=
  ⟨0x0FE00090, 0x00800010, fun c w => .addShReg c (bit w 20) (reg w 16) (reg w 12) (reg w 8) (shiftType w 5) (reg w 0)⟩

/-- ADC, ARM.dp_imm (R175). -/
def rowAdcImm : ArmRow :=
  ⟨0x0FE00000, 0x02A00000, fun c w => .adcImm c (bit w 20) (reg w 16) (reg w 12) (field w 8 4) (field w 0 8)⟩

/-- ADC, ARM.dp_reg_shift_imm (R175). -/
def rowAdcShImm : ArmRow :=
  ⟨0x0FE00010, 0x00A00000, fun c w => .adcShImm c (bit w 20) (reg w 16) (reg w 12) (field w 7 5) (shiftType w 5) (reg w 0)⟩

/-- ADC, ARM.dp_reg_shift_reg (R175). -/
def rowAdcShReg : ArmRow :=
  ⟨0x0FE00090, 0x00A00010, fun c w => .adcShReg c (bit w 20) (reg w 16) (reg w 12) (reg w 8) (shiftType w 5) (reg w 0)⟩

/-- SBC, ARM.dp_imm (R176). -/
def rowSbcImm : ArmRow :=
  ⟨0x0FE00000, 0x02C00000, fun c w => .sbcImm c (bit w 20) (reg w 16) (reg w 12) (field w 8 4) (field w 0 8)⟩

/-- SBC, ARM.dp_reg_shift_imm (R176). -/
def rowSbcShImm : ArmRow :=
  ⟨0x0FE00010, 0x00C00000, fun c w => .sbcShImm c (bit w 20) (reg w 16) (reg w 12) (field w 7 5) (shiftType w 5) (reg w 0)⟩

/-- SBC, ARM.dp_reg_shift_reg (R176). -/
def rowSbcShReg : ArmRow :=
  ⟨0x0FE00090, 0x00C00010, fun c w => .sbcShReg c (bit w 20) (reg w 16) (reg w 12) (reg w 8) (shiftType w 5) (reg w 0)⟩

/-- RSC, ARM.dp_imm (R177). -/
def rowRscImm : ArmRow :=
  ⟨0x0FE00000, 0x02E00000, fun c w => .rscImm c (bit w 20) (reg w 16) (reg w 12) (field w 8 4) (field w 0 8)⟩

/-- RSC, ARM.dp_reg_shift_imm (R177). -/
def rowRscShImm : ArmRow :=
  ⟨0x0FE00010, 0x00E00000, fun c w => .rscShImm c (bit w 20) (reg w 16) (reg w 12) (field w 7 5) (shiftType w 5) (reg w 0)⟩

/-- RSC, ARM.dp_reg_shift_reg (R177). -/
def rowRscShReg : ArmRow :=
  ⟨0x0FE00090, 0x00E00010, fun c w => .rscShReg c (bit w 20) (reg w 16) (reg w 12) (reg w 8) (shiftType w 5) (reg w 0)⟩

/-- TST, ARM.dp_imm (R178). -/
def rowTstImm : ArmRow :=
  ⟨0x0FF00000, 0x03100000, fun c w => .tstImm c (reg w 16) (reg w 12) (field w 8 4) (field w 0 8)⟩

/-- TST, ARM.dp_reg_shift_imm (R178). -/
def rowTstShImm : ArmRow :=
  ⟨0x0FF00010, 0x01100000, fun c w => .tstShImm c (reg w 16) (reg w 12) (field w 7 5) (shiftType w 5) (reg w 0)⟩

/-- TST, ARM.dp_reg_shift_reg (R178). -/
def rowTstShReg : ArmRow :=
  ⟨0x0FF00090, 0x01100010, fun c w => .tstShReg c (reg w 16) (reg w 12) (reg w 8) (shiftType w 5) (reg w 0)⟩

/-- TEQ, ARM.dp_imm (R179). -/
def rowTeqImm : ArmRow :=
  ⟨0x0FF00000, 0x03300000, fun c w => .teqImm c (reg w 16) (reg w 12) (field w 8 4) (field w 0 8)⟩

/-- TEQ, ARM.dp_reg_shift_imm (R179). -/
def rowTeqShImm : ArmRow :=
  ⟨0x0FF00010, 0x01300000, fun c w => .teqShImm c (reg w 16) (reg w 12) (field w 7 5) (shiftType w 5) (reg w 0)⟩

/-- TEQ, ARM.dp_reg_shift_reg (R179). -/
def rowTeqShReg : ArmRow :=
  ⟨0x0FF00090, 0x01300010, fun c w => .teqShReg c (reg w 16) (reg w 12) (reg w 8) (shiftType w 5) (reg w 0)⟩

/-- CMP, ARM.dp_imm (R180). -/
def rowCmpImm : ArmRow :=
  ⟨0x0FF00000, 0x03500000, fun c w => .cmpImm c (reg w 16) (reg w 12) (field w 8 4) (field w 0 8)⟩

/-- CMP, ARM.dp_reg_shift_imm (R180). -/
def rowCmpShImm : ArmRow :=
  ⟨0x0FF00010, 0x01500000, fun c w => .cmpShImm c (reg w 16) (reg w 12) (field w 7 5) (shiftType w 5) (reg w 0)⟩

/-- CMP, ARM.dp_reg_shift_reg (R180). -/
def rowCmpShReg : ArmRow :=
  ⟨0x0FF00090, 0x01500010, fun c w => .cmpShReg c (reg w 16) (reg w 12) (reg w 8) (shiftType w 5) (reg w 0)⟩

/-- CMN, ARM.dp_imm (R181). -/
def rowCmnImm : ArmRow :=
  ⟨0x0FF00000, 0x03700000, fun c w => .cmnImm c (reg w 16) (reg w 12) (field w 8 4) (field w 0 8)⟩

/-- CMN, ARM.dp_reg_shift_imm (R181). -/
def rowCmnShImm : ArmRow :=
  ⟨0x0FF00010, 0x01700000, fun c w => .cmnShImm c (reg w 16) (reg w 12) (field w 7 5) (shiftType w 5) (reg w 0)⟩

/-- CMN, ARM.dp_reg_shift_reg (R181). -/
def rowCmnShReg : ArmRow :=
  ⟨0x0FF00090, 0x01700010, fun c w => .cmnShReg c (reg w 16) (reg w 12) (reg w 8) (shiftType w 5) (reg w 0)⟩

/-- ORR, ARM.dp_imm (R182). -/
def rowOrrImm : ArmRow :=
  ⟨0x0FE00000, 0x03800000, fun c w => .orrImm c (bit w 20) (reg w 16) (reg w 12) (field w 8 4) (field w 0 8)⟩

/-- ORR, ARM.dp_reg_shift_imm (R182). -/
def rowOrrShImm : ArmRow :=
  ⟨0x0FE00010, 0x01800000, fun c w => .orrShImm c (bit w 20) (reg w 16) (reg w 12) (field w 7 5) (shiftType w 5) (reg w 0)⟩

/-- ORR, ARM.dp_reg_shift_reg (R182). -/
def rowOrrShReg : ArmRow :=
  ⟨0x0FE00090, 0x01800010, fun c w => .orrShReg c (bit w 20) (reg w 16) (reg w 12) (reg w 8) (shiftType w 5) (reg w 0)⟩

/-- MOV, ARM.dp_imm (R183). -/
def rowMovImm : ArmRow :=
  ⟨0x0FE00000, 0x03A00000, fun c w => .movImm c (bit w 20) (reg w 16) (reg w 12) (field w 8 4) (field w 0 8)⟩

/-- MOV, ARM.dp_reg_shift_imm (R183). -/
def rowMovShImm : ArmRow :=
  ⟨0x0FE00010, 0x01A00000, fun c w => .movShImm c (bit w 20) (reg w 16) (reg w 12) (field w 7 5) (shiftType w 5) (reg w 0)⟩

/-- MOV, ARM.dp_reg_shift_reg (R183). -/
def rowMovShReg : ArmRow :=
  ⟨0x0FE00090, 0x01A00010, fun c w => .movShReg c (bit w 20) (reg w 16) (reg w 12) (reg w 8) (shiftType w 5) (reg w 0)⟩

/-- BIC, ARM.dp_imm (R184). -/
def rowBicImm : ArmRow :=
  ⟨0x0FE00000, 0x03C00000, fun c w => .bicImm c (bit w 20) (reg w 16) (reg w 12) (field w 8 4) (field w 0 8)⟩

/-- BIC, ARM.dp_reg_shift_imm (R184). -/
def rowBicShImm : ArmRow :=
  ⟨0x0FE00010, 0x01C00000, fun c w => .bicShImm c (bit w 20) (reg w 16) (reg w 12) (field w 7 5) (shiftType w 5) (reg w 0)⟩

/-- BIC, ARM.dp_reg_shift_reg (R184). -/
def rowBicShReg : ArmRow :=
  ⟨0x0FE00090, 0x01C00010, fun c w => .bicShReg c (bit w 20) (reg w 16) (reg w 12) (reg w 8) (shiftType w 5) (reg w 0)⟩

/-- MVN, ARM.dp_imm (R185). -/
def rowMvnImm : ArmRow :=
  ⟨0x0FE00000, 0x03E00000, fun c w => .mvnImm c (bit w 20) (reg w 16) (reg w 12) (field w 8 4) (field w 0 8)⟩

/-- MVN, ARM.dp_reg_shift_imm (R185). -/
def rowMvnShImm : ArmRow :=
  ⟨0x0FE00010, 0x01E00000, fun c w => .mvnShImm c (bit w 20) (reg w 16) (reg w 12) (field w 7 5) (shiftType w 5) (reg w 0)⟩

/-- MVN, ARM.dp_reg_shift_reg (R185). -/
def rowMvnShReg : ArmRow :=
  ⟨0x0FE00090, 0x01E00010, fun c w => .mvnShReg c (bit w 20) (reg w 16) (reg w 12) (reg w 8) (shiftType w 5) (reg w 0)⟩

/-- MUL, ARM.multiply (R203). -/
def rowMul : ArmRow :=
  ⟨0x0FE000F0, 0x00000090, fun c w => .mul c (bit w 20) (reg w 16) (reg w 12) (reg w 8) (reg w 0)⟩

/-- MLA, ARM.multiply (R204). -/
def rowMla : ArmRow :=
  ⟨0x0FE000F0, 0x00200090, fun c w => .mla c (bit w 20) (reg w 16) (reg w 12) (reg w 8) (reg w 0)⟩

/-- UMULL, ARM.multiply_long (R205). -/
def rowUmull : ArmRow :=
  ⟨0x0FE000F0, 0x00800090, fun c w => .umull c (bit w 20) (reg w 16) (reg w 12) (reg w 8) (reg w 0)⟩

/-- UMLAL, ARM.multiply_long (R206). -/
def rowUmlal : ArmRow :=
  ⟨0x0FE000F0, 0x00A00090, fun c w => .umlal c (bit w 20) (reg w 16) (reg w 12) (reg w 8) (reg w 0)⟩

/-- SMULL, ARM.multiply_long (R207). -/
def rowSmull : ArmRow :=
  ⟨0x0FE000F0, 0x00C00090, fun c w => .smull c (bit w 20) (reg w 16) (reg w 12) (reg w 8) (reg w 0)⟩

/-- SMLAL, ARM.multiply_long (R208). -/
def rowSmlal : ArmRow :=
  ⟨0x0FE000F0, 0x00E00090, fun c w => .smlal c (bit w 20) (reg w 16) (reg w 12) (reg w 8) (reg w 0)⟩

/-- MRS, ARM.mrs (R222). -/
def rowMrs : ArmRow :=
  ⟨0x0FB00FF0, 0x01000000, fun c w => .mrs c (bit w 22) (reg w 12)⟩

/-- MSR, ARM.msr_reg (R224). -/
def rowMsrReg : ArmRow :=
  ⟨0x0FB00FF0, 0x01200000, fun c w => .msrReg c (bit w 22) (field w 16 4) (reg w 0)⟩

/-- MSR, ARM.msr_imm (R225). -/
def rowMsrImm : ArmRow :=
  ⟨0x0FB00000, 0x03200000, fun c w => .msrImm c (bit w 22) (field w 16 4) (field w 8 4) (field w 0 8)⟩

/-- LDR, ARM.sdt_imm_pre (R246). -/
def rowLdrImmPre : ArmRow :=
  ⟨0x0F500000, 0x05100000, fun c w => .ldrImmPre c (bit w 23) (bit w 21) (reg w 16) (reg w 12) (field w 0 12)⟩

/-- LDR, ARM.sdt_imm_post (R246). -/
def rowLdrImmPost : ArmRow :=
  ⟨0x0F700000, 0x04100000, fun c w => .ldrImmPost c (bit w 23) (reg w 16) (reg w 12) (field w 0 12)⟩

/-- LDRT, ARM.sdt_imm_post_t (R251). -/
def rowLdrtImm : ArmRow :=
  ⟨0x0F700000, 0x04300000, fun c w => .ldrtImm c (bit w 23) (reg w 16) (reg w 12) (field w 0 12)⟩

/-- LDR, ARM.sdt_reg_pre (R246). -/
def rowLdrRegPre : ArmRow :=
  ⟨0x0F500010, 0x07100000, fun c w => .ldrRegPre c (bit w 23) (bit w 21) (reg w 16) (reg w 12) (field w 7 5) (shiftType w 5) (reg w 0)⟩

/-- LDR, ARM.sdt_reg_post (R246). -/
def rowLdrRegPost : ArmRow :=
  ⟨0x0F700010, 0x06100000, fun c w => .ldrRegPost c (bit w 23) (reg w 16) (reg w 12) (field w 7 5) (shiftType w 5) (reg w 0)⟩

/-- LDRT, ARM.sdt_reg_post_t (R251). -/
def rowLdrtReg : ArmRow :=
  ⟨0x0F700010, 0x06300000, fun c w => .ldrtReg c (bit w 23) (reg w 16) (reg w 12) (field w 7 5) (shiftType w 5) (reg w 0)⟩

/-- STR, ARM.sdt_imm_pre (R247). -/
def rowStrImmPre : ArmRow :=
  ⟨0x0F500000, 0x05000000, fun c w => .strImmPre c (bit w 23) (bit w 21) (reg w 16) (reg w 12) (field w 0 12)⟩

/-- STR, ARM.sdt_imm_post (R247). -/
def rowStrImmPost : ArmRow :=
  ⟨0x0F700000, 0x04000000, fun c w => .strImmPost c (bit w 23) (reg w 16) (reg w 12) (field w 0 12)⟩

/-- STRT, ARM.sdt_imm_post_t (R253). -/
def rowStrtImm : ArmRow :=
  ⟨0x0F700000, 0x04200000, fun c w => .strtImm c (bit w 23) (reg w 16) (reg w 12) (field w 0 12)⟩

/-- STR, ARM.sdt_reg_pre (R247). -/
def rowStrRegPre : ArmRow :=
  ⟨0x0F500010, 0x07000000, fun c w => .strRegPre c (bit w 23) (bit w 21) (reg w 16) (reg w 12) (field w 7 5) (shiftType w 5) (reg w 0)⟩

/-- STR, ARM.sdt_reg_post (R247). -/
def rowStrRegPost : ArmRow :=
  ⟨0x0F700010, 0x06000000, fun c w => .strRegPost c (bit w 23) (reg w 16) (reg w 12) (field w 7 5) (shiftType w 5) (reg w 0)⟩

/-- STRT, ARM.sdt_reg_post_t (R253). -/
def rowStrtReg : ArmRow :=
  ⟨0x0F700010, 0x06200000, fun c w => .strtReg c (bit w 23) (reg w 16) (reg w 12) (field w 7 5) (shiftType w 5) (reg w 0)⟩

/-- LDRB, ARM.sdt_imm_pre (R248). -/
def rowLdrbImmPre : ArmRow :=
  ⟨0x0F500000, 0x05500000, fun c w => .ldrbImmPre c (bit w 23) (bit w 21) (reg w 16) (reg w 12) (field w 0 12)⟩

/-- LDRB, ARM.sdt_imm_post (R248). -/
def rowLdrbImmPost : ArmRow :=
  ⟨0x0F700000, 0x04500000, fun c w => .ldrbImmPost c (bit w 23) (reg w 16) (reg w 12) (field w 0 12)⟩

/-- LDRBT, ARM.sdt_imm_post_t (R252). -/
def rowLdrbtImm : ArmRow :=
  ⟨0x0F700000, 0x04700000, fun c w => .ldrbtImm c (bit w 23) (reg w 16) (reg w 12) (field w 0 12)⟩

/-- LDRB, ARM.sdt_reg_pre (R248). -/
def rowLdrbRegPre : ArmRow :=
  ⟨0x0F500010, 0x07500000, fun c w => .ldrbRegPre c (bit w 23) (bit w 21) (reg w 16) (reg w 12) (field w 7 5) (shiftType w 5) (reg w 0)⟩

/-- LDRB, ARM.sdt_reg_post (R248). -/
def rowLdrbRegPost : ArmRow :=
  ⟨0x0F700010, 0x06500000, fun c w => .ldrbRegPost c (bit w 23) (reg w 16) (reg w 12) (field w 7 5) (shiftType w 5) (reg w 0)⟩

/-- LDRBT, ARM.sdt_reg_post_t (R252). -/
def rowLdrbtReg : ArmRow :=
  ⟨0x0F700010, 0x06700000, fun c w => .ldrbtReg c (bit w 23) (reg w 16) (reg w 12) (field w 7 5) (shiftType w 5) (reg w 0)⟩

/-- STRB, ARM.sdt_imm_pre (R249). -/
def rowStrbImmPre : ArmRow :=
  ⟨0x0F500000, 0x05400000, fun c w => .strbImmPre c (bit w 23) (bit w 21) (reg w 16) (reg w 12) (field w 0 12)⟩

/-- STRB, ARM.sdt_imm_post (R249). -/
def rowStrbImmPost : ArmRow :=
  ⟨0x0F700000, 0x04400000, fun c w => .strbImmPost c (bit w 23) (reg w 16) (reg w 12) (field w 0 12)⟩

/-- STRBT, ARM.sdt_imm_post_t (R254). -/
def rowStrbtImm : ArmRow :=
  ⟨0x0F700000, 0x04600000, fun c w => .strbtImm c (bit w 23) (reg w 16) (reg w 12) (field w 0 12)⟩

/-- STRB, ARM.sdt_reg_pre (R249). -/
def rowStrbRegPre : ArmRow :=
  ⟨0x0F500010, 0x07400000, fun c w => .strbRegPre c (bit w 23) (bit w 21) (reg w 16) (reg w 12) (field w 7 5) (shiftType w 5) (reg w 0)⟩

/-- STRB, ARM.sdt_reg_post (R249). -/
def rowStrbRegPost : ArmRow :=
  ⟨0x0F700010, 0x06400000, fun c w => .strbRegPost c (bit w 23) (reg w 16) (reg w 12) (field w 7 5) (shiftType w 5) (reg w 0)⟩

/-- STRBT, ARM.sdt_reg_post_t (R254). -/
def rowStrbtReg : ArmRow :=
  ⟨0x0F700010, 0x06600000, fun c w => .strbtReg c (bit w 23) (reg w 16) (reg w 12) (field w 7 5) (shiftType w 5) (reg w 0)⟩

/-- STRH, ARM.halfword_reg (R255). -/
def rowStrhReg : ArmRow :=
  ⟨0x0E5000F0, 0x000000B0, fun c w => .strhReg c (bit w 24) (bit w 23) (bit w 21) (reg w 16) (reg w 12) (reg w 0)⟩

/-- STRH, ARM.halfword_imm (R255). -/
def rowStrhImm : ArmRow :=
  ⟨0x0E5000F0, 0x004000B0, fun c w => .strhImm c (bit w 24) (bit w 23) (bit w 21) (reg w 16) (reg w 12) (field w 8 4 ++ field w 0 4)⟩

/-- LDRH, ARM.halfword_reg (R256). -/
def rowLdrhReg : ArmRow :=
  ⟨0x0E5000F0, 0x001000B0, fun c w => .ldrhReg c (bit w 24) (bit w 23) (bit w 21) (reg w 16) (reg w 12) (reg w 0)⟩

/-- LDRH, ARM.halfword_imm (R256). -/
def rowLdrhImm : ArmRow :=
  ⟨0x0E5000F0, 0x005000B0, fun c w => .ldrhImm c (bit w 24) (bit w 23) (bit w 21) (reg w 16) (reg w 12) (field w 8 4 ++ field w 0 4)⟩

/-- LDRSB, ARM.halfword_reg (R257). -/
def rowLdrsbReg : ArmRow :=
  ⟨0x0E5000F0, 0x001000D0, fun c w => .ldrsbReg c (bit w 24) (bit w 23) (bit w 21) (reg w 16) (reg w 12) (reg w 0)⟩

/-- LDRSB, ARM.halfword_imm (R257). -/
def rowLdrsbImm : ArmRow :=
  ⟨0x0E5000F0, 0x005000D0, fun c w => .ldrsbImm c (bit w 24) (bit w 23) (bit w 21) (reg w 16) (reg w 12) (field w 8 4 ++ field w 0 4)⟩

/-- LDRSH, ARM.halfword_reg (R258). -/
def rowLdrshReg : ArmRow :=
  ⟨0x0E5000F0, 0x001000F0, fun c w => .ldrshReg c (bit w 24) (bit w 23) (bit w 21) (reg w 16) (reg w 12) (reg w 0)⟩

/-- LDRSH, ARM.halfword_imm (R258). -/
def rowLdrshImm : ArmRow :=
  ⟨0x0E5000F0, 0x005000F0, fun c w => .ldrshImm c (bit w 24) (bit w 23) (bit w 21) (reg w 16) (reg w 12) (field w 8 4 ++ field w 0 4)⟩

/-- SWP, ARM.swap (R262). -/
def rowSwp : ArmRow :=
  ⟨0x0FF00FF0, 0x01000090, fun c w => .swp c (reg w 16) (reg w 12) (reg w 0)⟩

/-- SWPB, ARM.swap (R263). -/
def rowSwpb : ArmRow :=
  ⟨0x0FF00FF0, 0x01400090, fun c w => .swpb c (reg w 16) (reg w 12) (reg w 0)⟩

/-- LDM, ARM.block (R284). -/
def rowLdm : ArmRow :=
  ⟨0x0E500000, 0x08100000, fun c w => .ldm c (bit w 24) (bit w 23) (bit w 21) (reg w 16) (field w 0 16)⟩

/-- LDM, ARM.block_user_bank (R285). -/
def rowLdmUser : ArmRow :=
  ⟨0x0E508000, 0x08500000, fun c w => .ldmUser c (bit w 24) (bit w 23) (bit w 21) (reg w 16) (field w 0 15)⟩

/-- LDM, ARM.block_cpsr_restore (R287). -/
def rowLdmRestore : ArmRow :=
  ⟨0x0E508000, 0x08508000, fun c w => .ldmRestore c (bit w 24) (bit w 23) (bit w 21) (reg w 16) (field w 0 15)⟩

/-- STM, ARM.block (R286). -/
def rowStm : ArmRow :=
  ⟨0x0E500000, 0x08000000, fun c w => .stm c (bit w 24) (bit w 23) (bit w 21) (reg w 16) (field w 0 16)⟩

/-- STM, ARM.block_user_bank (R289). -/
def rowStmUser : ArmRow :=
  ⟨0x0E500000, 0x08400000, fun c w => .stmUser c (bit w 24) (bit w 23) (bit w 21) (reg w 16) (field w 0 16)⟩

/-- B, ARM.branch (R301). -/
def rowB : ArmRow :=
  ⟨0x0F000000, 0x0A000000, fun c w => .b c (field w 0 24)⟩

/-- BL, ARM.branch (R302). -/
def rowBl : ArmRow :=
  ⟨0x0F000000, 0x0B000000, fun c w => .bl c (field w 0 24)⟩

/-- BX, ARM.branch_exchange (R303). -/
def rowBx : ArmRow :=
  ⟨0x0FFFFFF0, 0x012FFF10, fun c w => .bx c (reg w 0)⟩

/-- BLX, ARM.branch_exchange (R304). -/
def rowBlx : ArmRow :=
  ⟨0x0FFFFFF0, 0x012FFF30, fun c w => .blx c (reg w 0)⟩

/-- SWI, ARM.swi (R306). -/
def rowSwi : ArmRow :=
  ⟨0x0F000000, 0x0F000000, fun c w => .swi c (field w 0 24)⟩

/-- UNDEFINED, ARM.undefined (R308). -/
def rowUndefinedPattern : ArmRow :=
  ⟨0x0E000010, 0x06000010, fun c _ => .undefinedPattern c⟩

/-- LSL, THUMB.f1_shift_imm (R323). -/
def rowTLslImm : ThumbRow :=
  ⟨0xF800, 0x0000, fun w => .tLslImm (field w 6 5) (low w 3) (low w 0)⟩

/-- LSR, THUMB.f1_shift_imm (R324). -/
def rowTLsrImm : ThumbRow :=
  ⟨0xF800, 0x0800, fun w => .tLsrImm (field w 6 5) (low w 3) (low w 0)⟩

/-- ASR, THUMB.f1_shift_imm (R325). -/
def rowTAsrImm : ThumbRow :=
  ⟨0xF800, 0x1000, fun w => .tAsrImm (field w 6 5) (low w 3) (low w 0)⟩

/-- ADD, THUMB.f2_add_sub_reg (R326). -/
def rowTAddReg : ThumbRow :=
  ⟨0xFE00, 0x1800, fun w => .tAddReg (low w 6) (low w 3) (low w 0)⟩

/-- SUB, THUMB.f2_add_sub_reg (R327). -/
def rowTSubReg : ThumbRow :=
  ⟨0xFE00, 0x1A00, fun w => .tSubReg (low w 6) (low w 3) (low w 0)⟩

/-- ADD, THUMB.f2_add_sub_imm3 (R328). -/
def rowTAddImm3 : ThumbRow :=
  ⟨0xFE00, 0x1C00, fun w => .tAddImm3 (field w 6 3) (low w 3) (low w 0)⟩

/-- SUB, THUMB.f2_add_sub_imm3 (R329). -/
def rowTSubImm3 : ThumbRow :=
  ⟨0xFE00, 0x1E00, fun w => .tSubImm3 (field w 6 3) (low w 3) (low w 0)⟩

/-- MOV, THUMB.f3_imm8 (R330). -/
def rowTMovImm : ThumbRow :=
  ⟨0xF800, 0x2000, fun w => .tMovImm (low w 8) (field w 0 8)⟩

/-- CMP, THUMB.f3_imm8 (R331). -/
def rowTCmpImm : ThumbRow :=
  ⟨0xF800, 0x2800, fun w => .tCmpImm (low w 8) (field w 0 8)⟩

/-- ADD, THUMB.f3_imm8 (R332). -/
def rowTAddImm : ThumbRow :=
  ⟨0xF800, 0x3000, fun w => .tAddImm (low w 8) (field w 0 8)⟩

/-- SUB, THUMB.f3_imm8 (R333). -/
def rowTSubImm : ThumbRow :=
  ⟨0xF800, 0x3800, fun w => .tSubImm (low w 8) (field w 0 8)⟩

/-- AND, THUMB.f4_alu (R338). -/
def rowTAnd : ThumbRow :=
  ⟨0xFFC0, 0x4000, fun w => .tAnd (low w 3) (low w 0)⟩

/-- EOR, THUMB.f4_alu (R339). -/
def rowTEor : ThumbRow :=
  ⟨0xFFC0, 0x4040, fun w => .tEor (low w 3) (low w 0)⟩

/-- LSL, THUMB.f4_alu (R334). -/
def rowTLslReg : ThumbRow :=
  ⟨0xFFC0, 0x4080, fun w => .tLslReg (low w 3) (low w 0)⟩

/-- LSR, THUMB.f4_alu (R335). -/
def rowTLsrReg : ThumbRow :=
  ⟨0xFFC0, 0x40C0, fun w => .tLsrReg (low w 3) (low w 0)⟩

/-- ASR, THUMB.f4_alu (R336). -/
def rowTAsrReg : ThumbRow :=
  ⟨0xFFC0, 0x4100, fun w => .tAsrReg (low w 3) (low w 0)⟩

/-- ADC, THUMB.f4_alu (R340). -/
def rowTAdc : ThumbRow :=
  ⟨0xFFC0, 0x4140, fun w => .tAdc (low w 3) (low w 0)⟩

/-- SBC, THUMB.f4_alu (R341). -/
def rowTSbc : ThumbRow :=
  ⟨0xFFC0, 0x4180, fun w => .tSbc (low w 3) (low w 0)⟩

/-- ROR, THUMB.f4_alu (R337). -/
def rowTRorReg : ThumbRow :=
  ⟨0xFFC0, 0x41C0, fun w => .tRorReg (low w 3) (low w 0)⟩

/-- TST, THUMB.f4_alu (R342). -/
def rowTTst : ThumbRow :=
  ⟨0xFFC0, 0x4200, fun w => .tTst (low w 3) (low w 0)⟩

/-- NEG, THUMB.f4_alu (R343). -/
def rowTNeg : ThumbRow :=
  ⟨0xFFC0, 0x4240, fun w => .tNeg (low w 3) (low w 0)⟩

/-- CMP, THUMB.f4_alu (R344). -/
def rowTCmpReg : ThumbRow :=
  ⟨0xFFC0, 0x4280, fun w => .tCmpReg (low w 3) (low w 0)⟩

/-- CMN, THUMB.f4_alu (R345). -/
def rowTCmn : ThumbRow :=
  ⟨0xFFC0, 0x42C0, fun w => .tCmn (low w 3) (low w 0)⟩

/-- ORR, THUMB.f4_alu (R346). -/
def rowTOrr : ThumbRow :=
  ⟨0xFFC0, 0x4300, fun w => .tOrr (low w 3) (low w 0)⟩

/-- MUL, THUMB.f4_alu (R347). -/
def rowTMul : ThumbRow :=
  ⟨0xFFC0, 0x4340, fun w => .tMul (low w 3) (low w 0)⟩

/-- BIC, THUMB.f4_alu (R348). -/
def rowTBic : ThumbRow :=
  ⟨0xFFC0, 0x4380, fun w => .tBic (low w 3) (low w 0)⟩

/-- MVN, THUMB.f4_alu (R349). -/
def rowTMvn : ThumbRow :=
  ⟨0xFFC0, 0x43C0, fun w => .tMvn (low w 3) (low w 0)⟩

/-- ADD, THUMB.f5_hi_reg (R353). -/
def rowTAddHi : ThumbRow :=
  ⟨0xFF00, 0x4400, fun w => .tAddHi (hiReg w 7 0) (hiReg w 6 3)⟩

/-- CMP, THUMB.f5_hi_reg (R354). -/
def rowTCmpHi : ThumbRow :=
  ⟨0xFF00, 0x4500, fun w => .tCmpHi (hiReg w 7 0) (hiReg w 6 3)⟩

/-- MOV, THUMB.f5_hi_reg (R355). -/
def rowTMovHi : ThumbRow :=
  ⟨0xFF00, 0x4600, fun w => .tMovHi (hiReg w 7 0) (hiReg w 6 3)⟩

/-- BX, THUMB.f5_bx (R356). -/
def rowTBx : ThumbRow :=
  ⟨0xFF80, 0x4700, fun w => .tBx (hiReg w 6 3)⟩

/-- LDR, THUMB.f6_pc_rel (R371). -/
def rowTLdrPc : ThumbRow :=
  ⟨0xF800, 0x4800, fun w => .tLdrPc (low w 8) (field w 0 8)⟩

/-- STR, THUMB.f7_reg_offset (R373). -/
def rowTStrReg : ThumbRow :=
  ⟨0xFE00, 0x5000, fun w => .tStrReg (low w 6) (low w 3) (low w 0)⟩

/-- STRB, THUMB.f7_reg_offset (R374). -/
def rowTStrbReg : ThumbRow :=
  ⟨0xFE00, 0x5400, fun w => .tStrbReg (low w 6) (low w 3) (low w 0)⟩

/-- LDR, THUMB.f7_reg_offset (R375). -/
def rowTLdrReg : ThumbRow :=
  ⟨0xFE00, 0x5800, fun w => .tLdrReg (low w 6) (low w 3) (low w 0)⟩

/-- LDRB, THUMB.f7_reg_offset (R376). -/
def rowTLdrbReg : ThumbRow :=
  ⟨0xFE00, 0x5C00, fun w => .tLdrbReg (low w 6) (low w 3) (low w 0)⟩

/-- STRH, THUMB.f8_sign_ext (R378). -/
def rowTStrhReg : ThumbRow :=
  ⟨0xFE00, 0x5200, fun w => .tStrhReg (low w 6) (low w 3) (low w 0)⟩

/-- LDRH, THUMB.f8_sign_ext (R379). -/
def rowTLdrhReg : ThumbRow :=
  ⟨0xFE00, 0x5A00, fun w => .tLdrhReg (low w 6) (low w 3) (low w 0)⟩

/-- LDSB, THUMB.f8_sign_ext (R380). -/
def rowTLdsb : ThumbRow :=
  ⟨0xFE00, 0x5600, fun w => .tLdsb (low w 6) (low w 3) (low w 0)⟩

/-- LDSH, THUMB.f8_sign_ext (R381). -/
def rowTLdsh : ThumbRow :=
  ⟨0xFE00, 0x5E00, fun w => .tLdsh (low w 6) (low w 3) (low w 0)⟩

/-- STR, THUMB.f9_imm_offset (R383). -/
def rowTStrImm : ThumbRow :=
  ⟨0xF800, 0x6000, fun w => .tStrImm (field w 6 5) (low w 3) (low w 0)⟩

/-- LDR, THUMB.f9_imm_offset (R384). -/
def rowTLdrImm : ThumbRow :=
  ⟨0xF800, 0x6800, fun w => .tLdrImm (field w 6 5) (low w 3) (low w 0)⟩

/-- STRB, THUMB.f9_imm_offset (R385). -/
def rowTStrbImm : ThumbRow :=
  ⟨0xF800, 0x7000, fun w => .tStrbImm (field w 6 5) (low w 3) (low w 0)⟩

/-- LDRB, THUMB.f9_imm_offset (R386). -/
def rowTLdrbImm : ThumbRow :=
  ⟨0xF800, 0x7800, fun w => .tLdrbImm (field w 6 5) (low w 3) (low w 0)⟩

/-- STRH, THUMB.f10_halfword (R388). -/
def rowTStrhImm : ThumbRow :=
  ⟨0xF800, 0x8000, fun w => .tStrhImm (field w 6 5) (low w 3) (low w 0)⟩

/-- LDRH, THUMB.f10_halfword (R389). -/
def rowTLdrhImm : ThumbRow :=
  ⟨0xF800, 0x8800, fun w => .tLdrhImm (field w 6 5) (low w 3) (low w 0)⟩

/-- STR, THUMB.f11_sp_rel (R391). -/
def rowTStrSp : ThumbRow :=
  ⟨0xF800, 0x9000, fun w => .tStrSp (low w 8) (field w 0 8)⟩

/-- LDR, THUMB.f11_sp_rel (R392). -/
def rowTLdrSp : ThumbRow :=
  ⟨0xF800, 0x9800, fun w => .tLdrSp (low w 8) (field w 0 8)⟩

/-- ADD, THUMB.f12_rel_addr_pc (R360). -/
def rowTAddPc : ThumbRow :=
  ⟨0xF800, 0xA000, fun w => .tAddPc (low w 8) (field w 0 8)⟩

/-- ADD, THUMB.f12_rel_addr_sp (R361). -/
def rowTAddSp : ThumbRow :=
  ⟨0xF800, 0xA800, fun w => .tAddSp (low w 8) (field w 0 8)⟩

/-- ADD, THUMB.f13_sp_offset (R363). -/
def rowTSpAdd : ThumbRow :=
  ⟨0xFF80, 0xB000, fun w => .tSpAdd (field w 0 7)⟩

/-- ADD, THUMB.f13_sp_offset_neg (R364). -/
def rowTSpSub : ThumbRow :=
  ⟨0xFF80, 0xB080, fun w => .tSpSub (field w 0 7)⟩

/-- PUSH, THUMB.f14_push_pop (R396). -/
def rowTPush : ThumbRow :=
  ⟨0xFE00, 0xB400, fun w => .tPush (bit w 8) (field w 0 8)⟩

/-- POP, THUMB.f14_push_pop (R397). -/
def rowTPop : ThumbRow :=
  ⟨0xFE00, 0xBC00, fun w => .tPop (bit w 8) (field w 0 8)⟩

/-- STMIA, THUMB.f15_multiple (R401). -/
def rowTStmia : ThumbRow :=
  ⟨0xF800, 0xC000, fun w => .tStmia (low w 8) (field w 0 8)⟩

/-- LDMIA, THUMB.f15_multiple (R402). -/
def rowTLdmia : ThumbRow :=
  ⟨0xF800, 0xC800, fun w => .tLdmia (low w 8) (field w 0 8)⟩

/-- BEQ, THUMB.f16_cond_branch (R412). -/
def rowTBeq : ThumbRow :=
  ⟨0xFF00, 0xD000, fun w => .tBeq (field w 0 8)⟩

/-- BNE, THUMB.f16_cond_branch (R412). -/
def rowTBne : ThumbRow :=
  ⟨0xFF00, 0xD100, fun w => .tBne (field w 0 8)⟩

/-- BCS, THUMB.f16_cond_branch (R412). -/
def rowTBcs : ThumbRow :=
  ⟨0xFF00, 0xD200, fun w => .tBcs (field w 0 8)⟩

/-- BCC, THUMB.f16_cond_branch (R412). -/
def rowTBcc : ThumbRow :=
  ⟨0xFF00, 0xD300, fun w => .tBcc (field w 0 8)⟩

/-- BMI, THUMB.f16_cond_branch (R412). -/
def rowTBmi : ThumbRow :=
  ⟨0xFF00, 0xD400, fun w => .tBmi (field w 0 8)⟩

/-- BPL, THUMB.f16_cond_branch (R412). -/
def rowTBpl : ThumbRow :=
  ⟨0xFF00, 0xD500, fun w => .tBpl (field w 0 8)⟩

/-- BVS, THUMB.f16_cond_branch (R412). -/
def rowTBvs : ThumbRow :=
  ⟨0xFF00, 0xD600, fun w => .tBvs (field w 0 8)⟩

/-- BVC, THUMB.f16_cond_branch (R412). -/
def rowTBvc : ThumbRow :=
  ⟨0xFF00, 0xD700, fun w => .tBvc (field w 0 8)⟩

/-- BHI, THUMB.f16_cond_branch (R412). -/
def rowTBhi : ThumbRow :=
  ⟨0xFF00, 0xD800, fun w => .tBhi (field w 0 8)⟩

/-- BLS, THUMB.f16_cond_branch (R412). -/
def rowTBls : ThumbRow :=
  ⟨0xFF00, 0xD900, fun w => .tBls (field w 0 8)⟩

/-- BGE, THUMB.f16_cond_branch (R412). -/
def rowTBge : ThumbRow :=
  ⟨0xFF00, 0xDA00, fun w => .tBge (field w 0 8)⟩

/-- BLT, THUMB.f16_cond_branch (R412). -/
def rowTBlt : ThumbRow :=
  ⟨0xFF00, 0xDB00, fun w => .tBlt (field w 0 8)⟩

/-- BGT, THUMB.f16_cond_branch (R412). -/
def rowTBgt : ThumbRow :=
  ⟨0xFF00, 0xDC00, fun w => .tBgt (field w 0 8)⟩

/-- BLE, THUMB.f16_cond_branch (R412). -/
def rowTBle : ThumbRow :=
  ⟨0xFF00, 0xDD00, fun w => .tBle (field w 0 8)⟩

/-- SWI, THUMB.f17_swi (R415). -/
def rowTSwi : ThumbRow :=
  ⟨0xFF00, 0xDF00, fun w => .tSwi (field w 0 8)⟩

/-- B, THUMB.f18_branch (R417). -/
def rowTB : ThumbRow :=
  ⟨0xF800, 0xE000, fun w => .tB (field w 0 11)⟩

/-- BL, THUMB.f19_bl_high (R419). -/
def rowTBlHigh : ThumbRow :=
  ⟨0xF800, 0xF000, fun w => .tBlHigh (field w 0 11)⟩

/-- BL, THUMB.f19_bl_low (R420). -/
def rowTBlLow : ThumbRow :=
  ⟨0xF800, 0xF800, fun w => .tBlLow (field w 0 11)⟩

/-- BLX, THUMB.f19_blx_low (R421). -/
def rowTBlxLow : ThumbRow :=
  ⟨0xF800, 0xE800, fun w => .tBlxLow (field w 0 11)⟩

/-- Data processing (R98, R99). -/
def armDataRows : List ArmRow :=
  [rowAndImm, rowAndShImm, rowAndShReg, rowEorImm, rowEorShImm, rowEorShReg, rowSubImm, rowSubShImm,
   rowSubShReg, rowRsbImm, rowRsbShImm, rowRsbShReg, rowAddImm, rowAddShImm, rowAddShReg, rowAdcImm,
   rowAdcShImm, rowAdcShReg, rowSbcImm, rowSbcShImm, rowSbcShReg, rowRscImm, rowRscShImm, rowRscShReg,
   rowTstImm, rowTstShImm, rowTstShReg, rowTeqImm, rowTeqShImm, rowTeqShReg, rowCmpImm, rowCmpShImm,
   rowCmpShReg, rowCmnImm, rowCmnShImm, rowCmnShReg, rowOrrImm, rowOrrShImm, rowOrrShReg, rowMovImm,
   rowMovShImm, rowMovShReg, rowBicImm, rowBicShImm, rowBicShReg, rowMvnImm, rowMvnShImm, rowMvnShReg]

/-- Multiply (R100, R101). -/
def armMultiplyRows : List ArmRow :=
  [rowMul, rowMla, rowUmull, rowUmlal, rowSmull, rowSmlal]

/-- PSR transfer (R102). -/
def armPsrRows : List ArmRow :=
  [rowMrs, rowMsrReg, rowMsrImm]

/-- Single, halfword and swap transfers (R103, R104, R105). -/
def armTransferRows : List ArmRow :=
  [rowLdrImmPre, rowLdrImmPost, rowLdrtImm, rowLdrRegPre, rowLdrRegPost, rowLdrtReg, rowStrImmPre,
   rowStrImmPost, rowStrtImm, rowStrRegPre, rowStrRegPost, rowStrtReg, rowLdrbImmPre, rowLdrbImmPost,
   rowLdrbtImm, rowLdrbRegPre, rowLdrbRegPost, rowLdrbtReg, rowStrbImmPre, rowStrbImmPost, rowStrbtImm,
   rowStrbRegPre, rowStrbRegPost, rowStrbtReg, rowStrhReg, rowStrhImm, rowLdrhReg, rowLdrhImm, rowLdrsbReg,
   rowLdrsbImm, rowLdrshReg, rowLdrshImm, rowSwp, rowSwpb]

/-- Block transfer (R106). -/
def armBlockRows : List ArmRow :=
  [rowLdm, rowLdmUser, rowLdmRestore, rowStm, rowStmUser]

/-- Branches, SWI and the undefined pattern (R107 to R110). -/
def armBranchRows : List ArmRow :=
  [rowB, rowBl, rowBx, rowBlx, rowSwi, rowUndefinedPattern]

/-- The 102 ARM rows. -/
def armTable : List ArmRow :=
  armDataRows ++ armMultiplyRows ++ armPsrRows ++ armTransferRows ++ armBlockRows ++ armBranchRows

/-- Forms 1 to 5, 12 and 13 (R114, R115, R118). -/
def thumbAluRows : List ThumbRow :=
  [rowTLslImm, rowTLsrImm, rowTAsrImm, rowTAddReg, rowTSubReg, rowTAddImm3, rowTSubImm3, rowTMovImm,
   rowTCmpImm, rowTAddImm, rowTSubImm, rowTAnd, rowTEor, rowTLslReg, rowTLsrReg, rowTAsrReg, rowTAdc,
   rowTSbc, rowTRorReg, rowTTst, rowTNeg, rowTCmpReg, rowTCmn, rowTOrr, rowTMul, rowTBic, rowTMvn,
   rowTAddHi, rowTCmpHi, rowTMovHi, rowTBx, rowTAddPc, rowTAddSp, rowTSpAdd, rowTSpSub]

/-- Forms 6 to 11, 14 and 15 (R116, R117, R119). -/
def thumbTransferRows : List ThumbRow :=
  [rowTLdrPc, rowTStrReg, rowTStrbReg, rowTLdrReg, rowTLdrbReg, rowTStrhReg, rowTLdrhReg, rowTLdsb,
   rowTLdsh, rowTStrImm, rowTLdrImm, rowTStrbImm, rowTLdrbImm, rowTStrhImm, rowTLdrhImm, rowTStrSp,
   rowTLdrSp, rowTPush, rowTPop, rowTStmia, rowTLdmia]

/-- Forms 16 to 19 (R120, R121). -/
def thumbBranchRows : List ThumbRow :=
  [rowTBeq, rowTBne, rowTBcs, rowTBcc, rowTBmi, rowTBpl, rowTBvs, rowTBvc, rowTBhi, rowTBls, rowTBge,
   rowTBlt, rowTBgt, rowTBle, rowTSwi, rowTB, rowTBlHigh, rowTBlLow, rowTBlxLow]

/-- The 75 THUMB rows. -/
def thumbTable : List ThumbRow :=
  thumbAluRows ++ thumbTransferRows ++ thumbBranchRows

/-! ## Decoding -/

/-- The unallocated ARM spaces of R112, but X7, which is BLX without `HAS_BLX` and decodes to BLX. -/
inductive ArmSpace where
  | x1 | x2 | x3 | x4 | x5 | x6
deriving DecidableEq, Repr

/-- Why the decoder gives no instruction. -/
inductive Reject where
  /-- An ARM word with condition field 1111 (R97). -/
  | conditionNv
  /-- An ARM word that selects no row (R112), with its condition and its space. -/
  | unallocatedArm (c : Cond) (space : ArmSpace)
  /-- A THUMB halfword that selects no row (R122). -/
  | unallocatedThumb
  /-- Fewer bytes than one instruction. -/
  | truncated
deriving DecidableEq, Repr

/-- What the decoder answers. -/
abbrev Decoded (α : Type) := Except Reject α

/-- The space of an unallocated ARM word (R112); the spaces are tried in an order in which each test is R112's own. -/
def armSpace (w : Word) : ArmSpace :=
  if field w 25 3 = 0b110 then .x1
  else if field w 24 4 = 0b1110 then .x2
  else if field w 23 5 = 0b00110 then .x3
  else if field w 4 4 = 0b1001 then .x5
  else if field w 6 2 = 0b11 ∧ field w 4 1 = 0b1 then .x6
  else .x4

/-- Decode an ARM word (R92, R93): the condition field first, then the table. -/
def decodeArm (w : Word) : Decoded Instr :=
  match Cond.ofBits (field w 28 4) with
  | none => .error .conditionNv
  | some c =>
    match lookup armTable w with
    | some r => .ok (r.build c w)
    | none => .error (.unallocatedArm c (armSpace w))

/-- Decode a THUMB halfword (R113). -/
def decodeThumb (h : Half) : Decoded Instr :=
  match lookup thumbTable h with
  | some r => .ok (r.build h)
  | none => .error .unallocatedThumb

/-- The word or halfword of one instruction. -/
inductive Code where
  | arm (w : Word)
  | thumb (h : Half)
deriving DecidableEq, Repr

/-- Decode one instruction by the set it belongs to (R90, R435). -/
def decode : Code → Decoded Instr
  | .arm w => decodeArm w
  | .thumb h => decodeThumb h

/-- Decode the first instruction of a run of bytes, little-endian (R69), and give back the rest; the length comes from the
state bit alone (R90). -/
def decodeBytes (thumb : Bool) (bytes : List Byte) : Decoded (Instr × List Byte) :=
  match thumb, bytes with
  | false, b0 :: b1 :: b2 :: b3 :: rest => (decode (.arm (b3 ++ b2 ++ b1 ++ b0))).map fun i => (i, rest)
  | true, b0 :: b1 :: rest => (decode (.thumb (b1 ++ b0))).map fun i => (i, rest)
  | _, _ => .error .truncated

/-! ## Encoding -/

/-- Place a field at bit `lo`. -/
def put {n k : Nat} (lo : Nat) (v : BitVec k) : BitVec n := v.setWidth n <<< lo

/-- The 4-bit field of a register (R95). -/
def regBits (r : Reg) : BitVec 4 := BitVec.ofFin r

/-- The 3-bit field of a low register (R95). -/
def lowBits (r : LowReg) : BitVec 3 := BitVec.ofFin r

/-- A word of its fixed bits and its placed fields. -/
def assemble {n : Nat} (fixed : BitVec n) (fields : List (BitVec n)) : BitVec n := fields.foldr (· ||| ·) fixed

/-- The words of an instruction, from its row's match bits and fields.
Bits no row checks are written as the published encodings have them where R102 names them (MRS and MSR), else zero. -/
def encode : Instr → Code
  | .andImm c sb rn rd rot imm8 =>
    .arm (assemble 0x02000000 [put 28 c.bits, put 20 (BitVec.ofBool sb), put 16 (regBits rn), put 12 (regBits rd),
      put 8 rot, put 0 imm8])
  | .andShImm c sb rn rd amount ty rm =>
    .arm (assemble 0x00000000 [put 28 c.bits, put 20 (BitVec.ofBool sb), put 16 (regBits rn), put 12 (regBits rd),
      put 7 amount, put 5 ty.bits, put 0 (regBits rm)])
  | .andShReg c sb rn rd rs ty rm =>
    .arm (assemble 0x00000010 [put 28 c.bits, put 20 (BitVec.ofBool sb), put 16 (regBits rn), put 12 (regBits rd),
      put 8 (regBits rs), put 5 ty.bits, put 0 (regBits rm)])
  | .eorImm c sb rn rd rot imm8 =>
    .arm (assemble 0x02200000 [put 28 c.bits, put 20 (BitVec.ofBool sb), put 16 (regBits rn), put 12 (regBits rd),
      put 8 rot, put 0 imm8])
  | .eorShImm c sb rn rd amount ty rm =>
    .arm (assemble 0x00200000 [put 28 c.bits, put 20 (BitVec.ofBool sb), put 16 (regBits rn), put 12 (regBits rd),
      put 7 amount, put 5 ty.bits, put 0 (regBits rm)])
  | .eorShReg c sb rn rd rs ty rm =>
    .arm (assemble 0x00200010 [put 28 c.bits, put 20 (BitVec.ofBool sb), put 16 (regBits rn), put 12 (regBits rd),
      put 8 (regBits rs), put 5 ty.bits, put 0 (regBits rm)])
  | .subImm c sb rn rd rot imm8 =>
    .arm (assemble 0x02400000 [put 28 c.bits, put 20 (BitVec.ofBool sb), put 16 (regBits rn), put 12 (regBits rd),
      put 8 rot, put 0 imm8])
  | .subShImm c sb rn rd amount ty rm =>
    .arm (assemble 0x00400000 [put 28 c.bits, put 20 (BitVec.ofBool sb), put 16 (regBits rn), put 12 (regBits rd),
      put 7 amount, put 5 ty.bits, put 0 (regBits rm)])
  | .subShReg c sb rn rd rs ty rm =>
    .arm (assemble 0x00400010 [put 28 c.bits, put 20 (BitVec.ofBool sb), put 16 (regBits rn), put 12 (regBits rd),
      put 8 (regBits rs), put 5 ty.bits, put 0 (regBits rm)])
  | .rsbImm c sb rn rd rot imm8 =>
    .arm (assemble 0x02600000 [put 28 c.bits, put 20 (BitVec.ofBool sb), put 16 (regBits rn), put 12 (regBits rd),
      put 8 rot, put 0 imm8])
  | .rsbShImm c sb rn rd amount ty rm =>
    .arm (assemble 0x00600000 [put 28 c.bits, put 20 (BitVec.ofBool sb), put 16 (regBits rn), put 12 (regBits rd),
      put 7 amount, put 5 ty.bits, put 0 (regBits rm)])
  | .rsbShReg c sb rn rd rs ty rm =>
    .arm (assemble 0x00600010 [put 28 c.bits, put 20 (BitVec.ofBool sb), put 16 (regBits rn), put 12 (regBits rd),
      put 8 (regBits rs), put 5 ty.bits, put 0 (regBits rm)])
  | .addImm c sb rn rd rot imm8 =>
    .arm (assemble 0x02800000 [put 28 c.bits, put 20 (BitVec.ofBool sb), put 16 (regBits rn), put 12 (regBits rd),
      put 8 rot, put 0 imm8])
  | .addShImm c sb rn rd amount ty rm =>
    .arm (assemble 0x00800000 [put 28 c.bits, put 20 (BitVec.ofBool sb), put 16 (regBits rn), put 12 (regBits rd),
      put 7 amount, put 5 ty.bits, put 0 (regBits rm)])
  | .addShReg c sb rn rd rs ty rm =>
    .arm (assemble 0x00800010 [put 28 c.bits, put 20 (BitVec.ofBool sb), put 16 (regBits rn), put 12 (regBits rd),
      put 8 (regBits rs), put 5 ty.bits, put 0 (regBits rm)])
  | .adcImm c sb rn rd rot imm8 =>
    .arm (assemble 0x02A00000 [put 28 c.bits, put 20 (BitVec.ofBool sb), put 16 (regBits rn), put 12 (regBits rd),
      put 8 rot, put 0 imm8])
  | .adcShImm c sb rn rd amount ty rm =>
    .arm (assemble 0x00A00000 [put 28 c.bits, put 20 (BitVec.ofBool sb), put 16 (regBits rn), put 12 (regBits rd),
      put 7 amount, put 5 ty.bits, put 0 (regBits rm)])
  | .adcShReg c sb rn rd rs ty rm =>
    .arm (assemble 0x00A00010 [put 28 c.bits, put 20 (BitVec.ofBool sb), put 16 (regBits rn), put 12 (regBits rd),
      put 8 (regBits rs), put 5 ty.bits, put 0 (regBits rm)])
  | .sbcImm c sb rn rd rot imm8 =>
    .arm (assemble 0x02C00000 [put 28 c.bits, put 20 (BitVec.ofBool sb), put 16 (regBits rn), put 12 (regBits rd),
      put 8 rot, put 0 imm8])
  | .sbcShImm c sb rn rd amount ty rm =>
    .arm (assemble 0x00C00000 [put 28 c.bits, put 20 (BitVec.ofBool sb), put 16 (regBits rn), put 12 (regBits rd),
      put 7 amount, put 5 ty.bits, put 0 (regBits rm)])
  | .sbcShReg c sb rn rd rs ty rm =>
    .arm (assemble 0x00C00010 [put 28 c.bits, put 20 (BitVec.ofBool sb), put 16 (regBits rn), put 12 (regBits rd),
      put 8 (regBits rs), put 5 ty.bits, put 0 (regBits rm)])
  | .rscImm c sb rn rd rot imm8 =>
    .arm (assemble 0x02E00000 [put 28 c.bits, put 20 (BitVec.ofBool sb), put 16 (regBits rn), put 12 (regBits rd),
      put 8 rot, put 0 imm8])
  | .rscShImm c sb rn rd amount ty rm =>
    .arm (assemble 0x00E00000 [put 28 c.bits, put 20 (BitVec.ofBool sb), put 16 (regBits rn), put 12 (regBits rd),
      put 7 amount, put 5 ty.bits, put 0 (regBits rm)])
  | .rscShReg c sb rn rd rs ty rm =>
    .arm (assemble 0x00E00010 [put 28 c.bits, put 20 (BitVec.ofBool sb), put 16 (regBits rn), put 12 (regBits rd),
      put 8 (regBits rs), put 5 ty.bits, put 0 (regBits rm)])
  | .tstImm c rn rd rot imm8 =>
    .arm (assemble 0x03100000 [put 28 c.bits, put 16 (regBits rn), put 12 (regBits rd), put 8 rot, put 0 imm8])
  | .tstShImm c rn rd amount ty rm =>
    .arm (assemble 0x01100000 [put 28 c.bits, put 16 (regBits rn), put 12 (regBits rd), put 7 amount, put 5 ty.bits,
      put 0 (regBits rm)])
  | .tstShReg c rn rd rs ty rm =>
    .arm (assemble 0x01100010 [put 28 c.bits, put 16 (regBits rn), put 12 (regBits rd), put 8 (regBits rs),
      put 5 ty.bits, put 0 (regBits rm)])
  | .teqImm c rn rd rot imm8 =>
    .arm (assemble 0x03300000 [put 28 c.bits, put 16 (regBits rn), put 12 (regBits rd), put 8 rot, put 0 imm8])
  | .teqShImm c rn rd amount ty rm =>
    .arm (assemble 0x01300000 [put 28 c.bits, put 16 (regBits rn), put 12 (regBits rd), put 7 amount, put 5 ty.bits,
      put 0 (regBits rm)])
  | .teqShReg c rn rd rs ty rm =>
    .arm (assemble 0x01300010 [put 28 c.bits, put 16 (regBits rn), put 12 (regBits rd), put 8 (regBits rs),
      put 5 ty.bits, put 0 (regBits rm)])
  | .cmpImm c rn rd rot imm8 =>
    .arm (assemble 0x03500000 [put 28 c.bits, put 16 (regBits rn), put 12 (regBits rd), put 8 rot, put 0 imm8])
  | .cmpShImm c rn rd amount ty rm =>
    .arm (assemble 0x01500000 [put 28 c.bits, put 16 (regBits rn), put 12 (regBits rd), put 7 amount, put 5 ty.bits,
      put 0 (regBits rm)])
  | .cmpShReg c rn rd rs ty rm =>
    .arm (assemble 0x01500010 [put 28 c.bits, put 16 (regBits rn), put 12 (regBits rd), put 8 (regBits rs),
      put 5 ty.bits, put 0 (regBits rm)])
  | .cmnImm c rn rd rot imm8 =>
    .arm (assemble 0x03700000 [put 28 c.bits, put 16 (regBits rn), put 12 (regBits rd), put 8 rot, put 0 imm8])
  | .cmnShImm c rn rd amount ty rm =>
    .arm (assemble 0x01700000 [put 28 c.bits, put 16 (regBits rn), put 12 (regBits rd), put 7 amount, put 5 ty.bits,
      put 0 (regBits rm)])
  | .cmnShReg c rn rd rs ty rm =>
    .arm (assemble 0x01700010 [put 28 c.bits, put 16 (regBits rn), put 12 (regBits rd), put 8 (regBits rs),
      put 5 ty.bits, put 0 (regBits rm)])
  | .orrImm c sb rn rd rot imm8 =>
    .arm (assemble 0x03800000 [put 28 c.bits, put 20 (BitVec.ofBool sb), put 16 (regBits rn), put 12 (regBits rd),
      put 8 rot, put 0 imm8])
  | .orrShImm c sb rn rd amount ty rm =>
    .arm (assemble 0x01800000 [put 28 c.bits, put 20 (BitVec.ofBool sb), put 16 (regBits rn), put 12 (regBits rd),
      put 7 amount, put 5 ty.bits, put 0 (regBits rm)])
  | .orrShReg c sb rn rd rs ty rm =>
    .arm (assemble 0x01800010 [put 28 c.bits, put 20 (BitVec.ofBool sb), put 16 (regBits rn), put 12 (regBits rd),
      put 8 (regBits rs), put 5 ty.bits, put 0 (regBits rm)])
  | .movImm c sb rn rd rot imm8 =>
    .arm (assemble 0x03A00000 [put 28 c.bits, put 20 (BitVec.ofBool sb), put 16 (regBits rn), put 12 (regBits rd),
      put 8 rot, put 0 imm8])
  | .movShImm c sb rn rd amount ty rm =>
    .arm (assemble 0x01A00000 [put 28 c.bits, put 20 (BitVec.ofBool sb), put 16 (regBits rn), put 12 (regBits rd),
      put 7 amount, put 5 ty.bits, put 0 (regBits rm)])
  | .movShReg c sb rn rd rs ty rm =>
    .arm (assemble 0x01A00010 [put 28 c.bits, put 20 (BitVec.ofBool sb), put 16 (regBits rn), put 12 (regBits rd),
      put 8 (regBits rs), put 5 ty.bits, put 0 (regBits rm)])
  | .bicImm c sb rn rd rot imm8 =>
    .arm (assemble 0x03C00000 [put 28 c.bits, put 20 (BitVec.ofBool sb), put 16 (regBits rn), put 12 (regBits rd),
      put 8 rot, put 0 imm8])
  | .bicShImm c sb rn rd amount ty rm =>
    .arm (assemble 0x01C00000 [put 28 c.bits, put 20 (BitVec.ofBool sb), put 16 (regBits rn), put 12 (regBits rd),
      put 7 amount, put 5 ty.bits, put 0 (regBits rm)])
  | .bicShReg c sb rn rd rs ty rm =>
    .arm (assemble 0x01C00010 [put 28 c.bits, put 20 (BitVec.ofBool sb), put 16 (regBits rn), put 12 (regBits rd),
      put 8 (regBits rs), put 5 ty.bits, put 0 (regBits rm)])
  | .mvnImm c sb rn rd rot imm8 =>
    .arm (assemble 0x03E00000 [put 28 c.bits, put 20 (BitVec.ofBool sb), put 16 (regBits rn), put 12 (regBits rd),
      put 8 rot, put 0 imm8])
  | .mvnShImm c sb rn rd amount ty rm =>
    .arm (assemble 0x01E00000 [put 28 c.bits, put 20 (BitVec.ofBool sb), put 16 (regBits rn), put 12 (regBits rd),
      put 7 amount, put 5 ty.bits, put 0 (regBits rm)])
  | .mvnShReg c sb rn rd rs ty rm =>
    .arm (assemble 0x01E00010 [put 28 c.bits, put 20 (BitVec.ofBool sb), put 16 (regBits rn), put 12 (regBits rd),
      put 8 (regBits rs), put 5 ty.bits, put 0 (regBits rm)])
  | .mul c sb rd rn rs rm =>
    .arm (assemble 0x00000090 [put 28 c.bits, put 20 (BitVec.ofBool sb), put 16 (regBits rd), put 12 (regBits rn),
      put 8 (regBits rs), put 0 (regBits rm)])
  | .mla c sb rd rn rs rm =>
    .arm (assemble 0x00200090 [put 28 c.bits, put 20 (BitVec.ofBool sb), put 16 (regBits rd), put 12 (regBits rn),
      put 8 (regBits rs), put 0 (regBits rm)])
  | .umull c sb rdHi rdLo rs rm =>
    .arm (assemble 0x00800090 [put 28 c.bits, put 20 (BitVec.ofBool sb), put 16 (regBits rdHi),
      put 12 (regBits rdLo), put 8 (regBits rs), put 0 (regBits rm)])
  | .umlal c sb rdHi rdLo rs rm =>
    .arm (assemble 0x00A00090 [put 28 c.bits, put 20 (BitVec.ofBool sb), put 16 (regBits rdHi),
      put 12 (regBits rdLo), put 8 (regBits rs), put 0 (regBits rm)])
  | .smull c sb rdHi rdLo rs rm =>
    .arm (assemble 0x00C00090 [put 28 c.bits, put 20 (BitVec.ofBool sb), put 16 (regBits rdHi),
      put 12 (regBits rdLo), put 8 (regBits rs), put 0 (regBits rm)])
  | .smlal c sb rdHi rdLo rs rm =>
    .arm (assemble 0x00E00090 [put 28 c.bits, put 20 (BitVec.ofBool sb), put 16 (regBits rdHi),
      put 12 (regBits rdLo), put 8 (regBits rs), put 0 (regBits rm)])
  | .mrs c ps rd =>
    .arm (assemble 0x010f0000 [put 28 c.bits, put 22 (BitVec.ofBool ps), put 12 (regBits rd)])
  | .msrReg c ps mask rm =>
    .arm (assemble 0x0120f000 [put 28 c.bits, put 22 (BitVec.ofBool ps), put 16 mask, put 0 (regBits rm)])
  | .msrImm c ps mask rot imm8 =>
    .arm (assemble 0x0320f000 [put 28 c.bits, put 22 (BitVec.ofBool ps), put 16 mask, put 8 rot, put 0 imm8])
  | .ldrImmPre c up w rn rd imm12 =>
    .arm (assemble 0x05100000 [put 28 c.bits, put 23 (BitVec.ofBool up), put 21 (BitVec.ofBool w),
      put 16 (regBits rn), put 12 (regBits rd), put 0 imm12])
  | .ldrImmPost c up rn rd imm12 =>
    .arm (assemble 0x04100000 [put 28 c.bits, put 23 (BitVec.ofBool up), put 16 (regBits rn), put 12 (regBits rd),
      put 0 imm12])
  | .ldrtImm c up rn rd imm12 =>
    .arm (assemble 0x04300000 [put 28 c.bits, put 23 (BitVec.ofBool up), put 16 (regBits rn), put 12 (regBits rd),
      put 0 imm12])
  | .ldrRegPre c up w rn rd amount ty rm =>
    .arm (assemble 0x07100000 [put 28 c.bits, put 23 (BitVec.ofBool up), put 21 (BitVec.ofBool w),
      put 16 (regBits rn), put 12 (regBits rd), put 7 amount, put 5 ty.bits, put 0 (regBits rm)])
  | .ldrRegPost c up rn rd amount ty rm =>
    .arm (assemble 0x06100000 [put 28 c.bits, put 23 (BitVec.ofBool up), put 16 (regBits rn), put 12 (regBits rd),
      put 7 amount, put 5 ty.bits, put 0 (regBits rm)])
  | .ldrtReg c up rn rd amount ty rm =>
    .arm (assemble 0x06300000 [put 28 c.bits, put 23 (BitVec.ofBool up), put 16 (regBits rn), put 12 (regBits rd),
      put 7 amount, put 5 ty.bits, put 0 (regBits rm)])
  | .strImmPre c up w rn rd imm12 =>
    .arm (assemble 0x05000000 [put 28 c.bits, put 23 (BitVec.ofBool up), put 21 (BitVec.ofBool w),
      put 16 (regBits rn), put 12 (regBits rd), put 0 imm12])
  | .strImmPost c up rn rd imm12 =>
    .arm (assemble 0x04000000 [put 28 c.bits, put 23 (BitVec.ofBool up), put 16 (regBits rn), put 12 (regBits rd),
      put 0 imm12])
  | .strtImm c up rn rd imm12 =>
    .arm (assemble 0x04200000 [put 28 c.bits, put 23 (BitVec.ofBool up), put 16 (regBits rn), put 12 (regBits rd),
      put 0 imm12])
  | .strRegPre c up w rn rd amount ty rm =>
    .arm (assemble 0x07000000 [put 28 c.bits, put 23 (BitVec.ofBool up), put 21 (BitVec.ofBool w),
      put 16 (regBits rn), put 12 (regBits rd), put 7 amount, put 5 ty.bits, put 0 (regBits rm)])
  | .strRegPost c up rn rd amount ty rm =>
    .arm (assemble 0x06000000 [put 28 c.bits, put 23 (BitVec.ofBool up), put 16 (regBits rn), put 12 (regBits rd),
      put 7 amount, put 5 ty.bits, put 0 (regBits rm)])
  | .strtReg c up rn rd amount ty rm =>
    .arm (assemble 0x06200000 [put 28 c.bits, put 23 (BitVec.ofBool up), put 16 (regBits rn), put 12 (regBits rd),
      put 7 amount, put 5 ty.bits, put 0 (regBits rm)])
  | .ldrbImmPre c up w rn rd imm12 =>
    .arm (assemble 0x05500000 [put 28 c.bits, put 23 (BitVec.ofBool up), put 21 (BitVec.ofBool w),
      put 16 (regBits rn), put 12 (regBits rd), put 0 imm12])
  | .ldrbImmPost c up rn rd imm12 =>
    .arm (assemble 0x04500000 [put 28 c.bits, put 23 (BitVec.ofBool up), put 16 (regBits rn), put 12 (regBits rd),
      put 0 imm12])
  | .ldrbtImm c up rn rd imm12 =>
    .arm (assemble 0x04700000 [put 28 c.bits, put 23 (BitVec.ofBool up), put 16 (regBits rn), put 12 (regBits rd),
      put 0 imm12])
  | .ldrbRegPre c up w rn rd amount ty rm =>
    .arm (assemble 0x07500000 [put 28 c.bits, put 23 (BitVec.ofBool up), put 21 (BitVec.ofBool w),
      put 16 (regBits rn), put 12 (regBits rd), put 7 amount, put 5 ty.bits, put 0 (regBits rm)])
  | .ldrbRegPost c up rn rd amount ty rm =>
    .arm (assemble 0x06500000 [put 28 c.bits, put 23 (BitVec.ofBool up), put 16 (regBits rn), put 12 (regBits rd),
      put 7 amount, put 5 ty.bits, put 0 (regBits rm)])
  | .ldrbtReg c up rn rd amount ty rm =>
    .arm (assemble 0x06700000 [put 28 c.bits, put 23 (BitVec.ofBool up), put 16 (regBits rn), put 12 (regBits rd),
      put 7 amount, put 5 ty.bits, put 0 (regBits rm)])
  | .strbImmPre c up w rn rd imm12 =>
    .arm (assemble 0x05400000 [put 28 c.bits, put 23 (BitVec.ofBool up), put 21 (BitVec.ofBool w),
      put 16 (regBits rn), put 12 (regBits rd), put 0 imm12])
  | .strbImmPost c up rn rd imm12 =>
    .arm (assemble 0x04400000 [put 28 c.bits, put 23 (BitVec.ofBool up), put 16 (regBits rn), put 12 (regBits rd),
      put 0 imm12])
  | .strbtImm c up rn rd imm12 =>
    .arm (assemble 0x04600000 [put 28 c.bits, put 23 (BitVec.ofBool up), put 16 (regBits rn), put 12 (regBits rd),
      put 0 imm12])
  | .strbRegPre c up w rn rd amount ty rm =>
    .arm (assemble 0x07400000 [put 28 c.bits, put 23 (BitVec.ofBool up), put 21 (BitVec.ofBool w),
      put 16 (regBits rn), put 12 (regBits rd), put 7 amount, put 5 ty.bits, put 0 (regBits rm)])
  | .strbRegPost c up rn rd amount ty rm =>
    .arm (assemble 0x06400000 [put 28 c.bits, put 23 (BitVec.ofBool up), put 16 (regBits rn), put 12 (regBits rd),
      put 7 amount, put 5 ty.bits, put 0 (regBits rm)])
  | .strbtReg c up rn rd amount ty rm =>
    .arm (assemble 0x06600000 [put 28 c.bits, put 23 (BitVec.ofBool up), put 16 (regBits rn), put 12 (regBits rd),
      put 7 amount, put 5 ty.bits, put 0 (regBits rm)])
  | .strhReg c p up w rn rd rm =>
    .arm (assemble 0x000000B0 [put 28 c.bits, put 24 (BitVec.ofBool p), put 23 (BitVec.ofBool up),
      put 21 (BitVec.ofBool w), put 16 (regBits rn), put 12 (regBits rd), put 0 (regBits rm)])
  | .strhImm c p up w rn rd imm8 =>
    .arm (assemble 0x004000B0 [put 28 c.bits, put 24 (BitVec.ofBool p), put 23 (BitVec.ofBool up),
      put 21 (BitVec.ofBool w), put 16 (regBits rn), put 12 (regBits rd), put 8 (field imm8 4 4),
      put 0 (field imm8 0 4)])
  | .ldrhReg c p up w rn rd rm =>
    .arm (assemble 0x001000B0 [put 28 c.bits, put 24 (BitVec.ofBool p), put 23 (BitVec.ofBool up),
      put 21 (BitVec.ofBool w), put 16 (regBits rn), put 12 (regBits rd), put 0 (regBits rm)])
  | .ldrhImm c p up w rn rd imm8 =>
    .arm (assemble 0x005000B0 [put 28 c.bits, put 24 (BitVec.ofBool p), put 23 (BitVec.ofBool up),
      put 21 (BitVec.ofBool w), put 16 (regBits rn), put 12 (regBits rd), put 8 (field imm8 4 4),
      put 0 (field imm8 0 4)])
  | .ldrsbReg c p up w rn rd rm =>
    .arm (assemble 0x001000D0 [put 28 c.bits, put 24 (BitVec.ofBool p), put 23 (BitVec.ofBool up),
      put 21 (BitVec.ofBool w), put 16 (regBits rn), put 12 (regBits rd), put 0 (regBits rm)])
  | .ldrsbImm c p up w rn rd imm8 =>
    .arm (assemble 0x005000D0 [put 28 c.bits, put 24 (BitVec.ofBool p), put 23 (BitVec.ofBool up),
      put 21 (BitVec.ofBool w), put 16 (regBits rn), put 12 (regBits rd), put 8 (field imm8 4 4),
      put 0 (field imm8 0 4)])
  | .ldrshReg c p up w rn rd rm =>
    .arm (assemble 0x001000F0 [put 28 c.bits, put 24 (BitVec.ofBool p), put 23 (BitVec.ofBool up),
      put 21 (BitVec.ofBool w), put 16 (regBits rn), put 12 (regBits rd), put 0 (regBits rm)])
  | .ldrshImm c p up w rn rd imm8 =>
    .arm (assemble 0x005000F0 [put 28 c.bits, put 24 (BitVec.ofBool p), put 23 (BitVec.ofBool up),
      put 21 (BitVec.ofBool w), put 16 (regBits rn), put 12 (regBits rd), put 8 (field imm8 4 4),
      put 0 (field imm8 0 4)])
  | .swp c rn rd rm =>
    .arm (assemble 0x01000090 [put 28 c.bits, put 16 (regBits rn), put 12 (regBits rd), put 0 (regBits rm)])
  | .swpb c rn rd rm =>
    .arm (assemble 0x01400090 [put 28 c.bits, put 16 (regBits rn), put 12 (regBits rd), put 0 (regBits rm)])
  | .ldm c p up w rn list =>
    .arm (assemble 0x08100000 [put 28 c.bits, put 24 (BitVec.ofBool p), put 23 (BitVec.ofBool up),
      put 21 (BitVec.ofBool w), put 16 (regBits rn), put 0 list])
  | .ldmUser c p up w rn list =>
    .arm (assemble 0x08500000 [put 28 c.bits, put 24 (BitVec.ofBool p), put 23 (BitVec.ofBool up),
      put 21 (BitVec.ofBool w), put 16 (regBits rn), put 0 list])
  | .ldmRestore c p up w rn list =>
    .arm (assemble 0x08508000 [put 28 c.bits, put 24 (BitVec.ofBool p), put 23 (BitVec.ofBool up),
      put 21 (BitVec.ofBool w), put 16 (regBits rn), put 0 list])
  | .stm c p up w rn list =>
    .arm (assemble 0x08000000 [put 28 c.bits, put 24 (BitVec.ofBool p), put 23 (BitVec.ofBool up),
      put 21 (BitVec.ofBool w), put 16 (regBits rn), put 0 list])
  | .stmUser c p up w rn list =>
    .arm (assemble 0x08400000 [put 28 c.bits, put 24 (BitVec.ofBool p), put 23 (BitVec.ofBool up),
      put 21 (BitVec.ofBool w), put 16 (regBits rn), put 0 list])
  | .b c offset24 =>
    .arm (assemble 0x0A000000 [put 28 c.bits, put 0 offset24])
  | .bl c offset24 =>
    .arm (assemble 0x0B000000 [put 28 c.bits, put 0 offset24])
  | .bx c rn =>
    .arm (assemble 0x012FFF10 [put 28 c.bits, put 0 (regBits rn)])
  | .blx c rn =>
    .arm (assemble 0x012FFF30 [put 28 c.bits, put 0 (regBits rn)])
  | .swi c comment24 =>
    .arm (assemble 0x0F000000 [put 28 c.bits, put 0 comment24])
  | .undefinedPattern c =>
    .arm (assemble 0x06000010 [put 28 c.bits])
  | .tLslImm amount rs rd =>
    .thumb (assemble 0x0000 [put 6 amount, put 3 (lowBits rs), put 0 (lowBits rd)])
  | .tLsrImm amount rs rd =>
    .thumb (assemble 0x0800 [put 6 amount, put 3 (lowBits rs), put 0 (lowBits rd)])
  | .tAsrImm amount rs rd =>
    .thumb (assemble 0x1000 [put 6 amount, put 3 (lowBits rs), put 0 (lowBits rd)])
  | .tAddReg rn rs rd =>
    .thumb (assemble 0x1800 [put 6 (lowBits rn), put 3 (lowBits rs), put 0 (lowBits rd)])
  | .tSubReg rn rs rd =>
    .thumb (assemble 0x1A00 [put 6 (lowBits rn), put 3 (lowBits rs), put 0 (lowBits rd)])
  | .tAddImm3 imm3 rs rd =>
    .thumb (assemble 0x1C00 [put 6 imm3, put 3 (lowBits rs), put 0 (lowBits rd)])
  | .tSubImm3 imm3 rs rd =>
    .thumb (assemble 0x1E00 [put 6 imm3, put 3 (lowBits rs), put 0 (lowBits rd)])
  | .tMovImm rd imm8 =>
    .thumb (assemble 0x2000 [put 8 (lowBits rd), put 0 imm8])
  | .tCmpImm rd imm8 =>
    .thumb (assemble 0x2800 [put 8 (lowBits rd), put 0 imm8])
  | .tAddImm rd imm8 =>
    .thumb (assemble 0x3000 [put 8 (lowBits rd), put 0 imm8])
  | .tSubImm rd imm8 =>
    .thumb (assemble 0x3800 [put 8 (lowBits rd), put 0 imm8])
  | .tAnd rs rd =>
    .thumb (assemble 0x4000 [put 3 (lowBits rs), put 0 (lowBits rd)])
  | .tEor rs rd =>
    .thumb (assemble 0x4040 [put 3 (lowBits rs), put 0 (lowBits rd)])
  | .tLslReg rs rd =>
    .thumb (assemble 0x4080 [put 3 (lowBits rs), put 0 (lowBits rd)])
  | .tLsrReg rs rd =>
    .thumb (assemble 0x40C0 [put 3 (lowBits rs), put 0 (lowBits rd)])
  | .tAsrReg rs rd =>
    .thumb (assemble 0x4100 [put 3 (lowBits rs), put 0 (lowBits rd)])
  | .tAdc rs rd =>
    .thumb (assemble 0x4140 [put 3 (lowBits rs), put 0 (lowBits rd)])
  | .tSbc rs rd =>
    .thumb (assemble 0x4180 [put 3 (lowBits rs), put 0 (lowBits rd)])
  | .tRorReg rs rd =>
    .thumb (assemble 0x41C0 [put 3 (lowBits rs), put 0 (lowBits rd)])
  | .tTst rs rd =>
    .thumb (assemble 0x4200 [put 3 (lowBits rs), put 0 (lowBits rd)])
  | .tNeg rs rd =>
    .thumb (assemble 0x4240 [put 3 (lowBits rs), put 0 (lowBits rd)])
  | .tCmpReg rs rd =>
    .thumb (assemble 0x4280 [put 3 (lowBits rs), put 0 (lowBits rd)])
  | .tCmn rs rd =>
    .thumb (assemble 0x42C0 [put 3 (lowBits rs), put 0 (lowBits rd)])
  | .tOrr rs rd =>
    .thumb (assemble 0x4300 [put 3 (lowBits rs), put 0 (lowBits rd)])
  | .tMul rs rd =>
    .thumb (assemble 0x4340 [put 3 (lowBits rs), put 0 (lowBits rd)])
  | .tBic rs rd =>
    .thumb (assemble 0x4380 [put 3 (lowBits rs), put 0 (lowBits rd)])
  | .tMvn rs rd =>
    .thumb (assemble 0x43C0 [put 3 (lowBits rs), put 0 (lowBits rd)])
  | .tAddHi rd rs =>
    .thumb (assemble 0x4400 [put 7 (field (regBits rd) 3 1), put 0 (field (regBits rd) 0 3),
      put 6 (field (regBits rs) 3 1), put 3 (field (regBits rs) 0 3)])
  | .tCmpHi rd rs =>
    .thumb (assemble 0x4500 [put 7 (field (regBits rd) 3 1), put 0 (field (regBits rd) 0 3),
      put 6 (field (regBits rs) 3 1), put 3 (field (regBits rs) 0 3)])
  | .tMovHi rd rs =>
    .thumb (assemble 0x4600 [put 7 (field (regBits rd) 3 1), put 0 (field (regBits rd) 0 3),
      put 6 (field (regBits rs) 3 1), put 3 (field (regBits rs) 0 3)])
  | .tBx rs =>
    .thumb (assemble 0x4700 [put 6 (field (regBits rs) 3 1), put 3 (field (regBits rs) 0 3)])
  | .tLdrPc rd word8 =>
    .thumb (assemble 0x4800 [put 8 (lowBits rd), put 0 word8])
  | .tStrReg ro rb rd =>
    .thumb (assemble 0x5000 [put 6 (lowBits ro), put 3 (lowBits rb), put 0 (lowBits rd)])
  | .tStrbReg ro rb rd =>
    .thumb (assemble 0x5400 [put 6 (lowBits ro), put 3 (lowBits rb), put 0 (lowBits rd)])
  | .tLdrReg ro rb rd =>
    .thumb (assemble 0x5800 [put 6 (lowBits ro), put 3 (lowBits rb), put 0 (lowBits rd)])
  | .tLdrbReg ro rb rd =>
    .thumb (assemble 0x5C00 [put 6 (lowBits ro), put 3 (lowBits rb), put 0 (lowBits rd)])
  | .tStrhReg ro rb rd =>
    .thumb (assemble 0x5200 [put 6 (lowBits ro), put 3 (lowBits rb), put 0 (lowBits rd)])
  | .tLdrhReg ro rb rd =>
    .thumb (assemble 0x5A00 [put 6 (lowBits ro), put 3 (lowBits rb), put 0 (lowBits rd)])
  | .tLdsb ro rb rd =>
    .thumb (assemble 0x5600 [put 6 (lowBits ro), put 3 (lowBits rb), put 0 (lowBits rd)])
  | .tLdsh ro rb rd =>
    .thumb (assemble 0x5E00 [put 6 (lowBits ro), put 3 (lowBits rb), put 0 (lowBits rd)])
  | .tStrImm offset5 rb rd =>
    .thumb (assemble 0x6000 [put 6 offset5, put 3 (lowBits rb), put 0 (lowBits rd)])
  | .tLdrImm offset5 rb rd =>
    .thumb (assemble 0x6800 [put 6 offset5, put 3 (lowBits rb), put 0 (lowBits rd)])
  | .tStrbImm offset5 rb rd =>
    .thumb (assemble 0x7000 [put 6 offset5, put 3 (lowBits rb), put 0 (lowBits rd)])
  | .tLdrbImm offset5 rb rd =>
    .thumb (assemble 0x7800 [put 6 offset5, put 3 (lowBits rb), put 0 (lowBits rd)])
  | .tStrhImm offset5 rb rd =>
    .thumb (assemble 0x8000 [put 6 offset5, put 3 (lowBits rb), put 0 (lowBits rd)])
  | .tLdrhImm offset5 rb rd =>
    .thumb (assemble 0x8800 [put 6 offset5, put 3 (lowBits rb), put 0 (lowBits rd)])
  | .tStrSp rd word8 =>
    .thumb (assemble 0x9000 [put 8 (lowBits rd), put 0 word8])
  | .tLdrSp rd word8 =>
    .thumb (assemble 0x9800 [put 8 (lowBits rd), put 0 word8])
  | .tAddPc rd word8 =>
    .thumb (assemble 0xA000 [put 8 (lowBits rd), put 0 word8])
  | .tAddSp rd word8 =>
    .thumb (assemble 0xA800 [put 8 (lowBits rd), put 0 word8])
  | .tSpAdd sword7 =>
    .thumb (assemble 0xB000 [put 0 sword7])
  | .tSpSub sword7 =>
    .thumb (assemble 0xB080 [put 0 sword7])
  | .tPush r rlist =>
    .thumb (assemble 0xB400 [put 8 (BitVec.ofBool r), put 0 rlist])
  | .tPop r rlist =>
    .thumb (assemble 0xBC00 [put 8 (BitVec.ofBool r), put 0 rlist])
  | .tStmia rb rlist =>
    .thumb (assemble 0xC000 [put 8 (lowBits rb), put 0 rlist])
  | .tLdmia rb rlist =>
    .thumb (assemble 0xC800 [put 8 (lowBits rb), put 0 rlist])
  | .tBeq soffset8 =>
    .thumb (assemble 0xD000 [put 0 soffset8])
  | .tBne soffset8 =>
    .thumb (assemble 0xD100 [put 0 soffset8])
  | .tBcs soffset8 =>
    .thumb (assemble 0xD200 [put 0 soffset8])
  | .tBcc soffset8 =>
    .thumb (assemble 0xD300 [put 0 soffset8])
  | .tBmi soffset8 =>
    .thumb (assemble 0xD400 [put 0 soffset8])
  | .tBpl soffset8 =>
    .thumb (assemble 0xD500 [put 0 soffset8])
  | .tBvs soffset8 =>
    .thumb (assemble 0xD600 [put 0 soffset8])
  | .tBvc soffset8 =>
    .thumb (assemble 0xD700 [put 0 soffset8])
  | .tBhi soffset8 =>
    .thumb (assemble 0xD800 [put 0 soffset8])
  | .tBls soffset8 =>
    .thumb (assemble 0xD900 [put 0 soffset8])
  | .tBge soffset8 =>
    .thumb (assemble 0xDA00 [put 0 soffset8])
  | .tBlt soffset8 =>
    .thumb (assemble 0xDB00 [put 0 soffset8])
  | .tBgt soffset8 =>
    .thumb (assemble 0xDC00 [put 0 soffset8])
  | .tBle soffset8 =>
    .thumb (assemble 0xDD00 [put 0 soffset8])
  | .tSwi value8 =>
    .thumb (assemble 0xDF00 [put 0 value8])
  | .tB offset11 =>
    .thumb (assemble 0xE000 [put 0 offset11])
  | .tBlHigh offset11 =>
    .thumb (assemble 0xF000 [put 0 offset11])
  | .tBlLow offset11 =>
    .thumb (assemble 0xF800 [put 0 offset11])
  | .tBlxLow offset11 =>
    .thumb (assemble 0xE800 [put 0 offset11])

/-- The bytes of a word or halfword, lowest address first (R69). -/
def codeBytes : Code → List Byte
  | .arm w => [field w 0 8, field w 8 8, field w 16 8, field w 24 8]
  | .thumb h => [field h 0 8, field h 8 8]

/-- The bytes of an instruction. -/
def encodeBytes (i : Instr) : List Byte := codeBytes (encode i)

/-- The instruction the decoder reads from the bits `w` of a table row of `nbits` bits: laid out as the hardware stores it
and decoded from the bytes; a 16-bit row is THUMB, a 32-bit row ARM. -/
def decodeTableWord (nbits w : Nat) : Option Instr :=
  let code : Option Code :=
    if nbits = 16 then some (.thumb (BitVec.ofNat 16 w)) else if nbits = 32 then some (.arm (BitVec.ofNat 32 w)) else none
  match code with
  | none => none
  | some k =>
    match decodeBytes (nbits == 16) (codeBytes k) with
    | .ok (i, _) => some i
    | .error _ => none

end Sys2Proof
end

