-- ==== Sys2Proof/Machine/Psr.lean ====
section
/-! DEFINITION. The program status registers (spec/10_state.md R30, R31, R36): modes and their encodings, the fields of a
PSR, and a PSR as the 32-bit word that MRS reads and MSR writes. Bits 27:8 hold no state (R36), so a PSR is exactly its
fields; CPSR.M is always a recognised mode (R38 (b)), while an SPSR may hold any five bits there (R226). -/

namespace Sys2Proof.Machine

/-- The seven modes (R31). -/
inductive Mode where
  | user
  | fiq
  | irq
  | supervisor
  | abort
  | undefined
  | system
deriving DecidableEq, Repr

/-- `M[4:0]` of a mode (R31). -/
def Mode.bits : Mode → BitVec 5
  | .user => 0b10000
  | .fiq => 0b10001
  | .irq => 0b10010
  | .supervisor => 0b10011
  | .abort => 0b10111
  | .undefined => 0b11011
  | .system => 0b11111

/-- The mode with given `M[4:0]`; none for the 25 unrecognised values (R31, R229). -/
def Mode.ofBits (b : BitVec 5) : Option Mode :=
  if b = 0b10000 then some .user
  else if b = 0b10001 then some .fiq
  else if b = 0b10010 then some .irq
  else if b = 0b10011 then some .supervisor
  else if b = 0b10111 then some .abort
  else if b = 0b11011 then some .undefined
  else if b = 0b11111 then some .system
  else none

/-- The modes that have an SPSR: every mode but USER and SYSTEM (R31, R35). -/
def Mode.hasSpsr : Mode → Bool
  | .user => false
  | .system => false
  | _ => true

/-- A program status register (R30); `μ` is what its mode field can hold. -/
structure Psr (μ : Type) where
  n : Bool
  z : Bool
  c : Bool
  v : Bool
  i : Bool
  f : Bool
  t : Bool
  m : μ
deriving DecidableEq, Repr

/-- The CPSR: its mode field is one of the seven modes. -/
abbrev Cpsr := Psr Mode

/-- An SPSR: its mode field is any five bits (R226, R50). -/
abbrev Spsr := Psr (BitVec 5)

/-- The PSR with its mode field as bits. -/
def Psr.toSpsr (p : Cpsr) : Spsr :=
  { n := p.n, z := p.z, c := p.c, v := p.v, i := p.i, f := p.f, t := p.t, m := p.m.bits }

/-- The saved status as a CPSR; none when its mode is unrecognised (R229). -/
def Psr.toCpsr? (p : Spsr) : Option Cpsr :=
  (Mode.ofBits p.m).map fun m =>
    { n := p.n, z := p.z, c := p.c, v := p.v, i := p.i, f := p.f, t := p.t, m := m }

/-- A PSR as the word of R30, bits 27:8 zero (R36). -/
def Psr.toWord (p : Spsr) : Word :=
  BitVec.ofBool p.n ++ BitVec.ofBool p.z ++ BitVec.ofBool p.c ++ BitVec.ofBool p.v ++ 0#20 ++
    BitVec.ofBool p.i ++ BitVec.ofBool p.f ++ BitVec.ofBool p.t ++ p.m

/-- The PSR a word denotes: bits 27:8 are dropped (R30, R36). -/
def Psr.ofWord (w : Word) : Spsr :=
  { n := w.getLsbD 31, z := w.getLsbD 30, c := w.getLsbD 29, v := w.getLsbD 28,
    i := w.getLsbD 7, f := w.getLsbD 6, t := w.getLsbD 5, m := w.extractLsb' 0 5 }

/-- The five saved status registers (R35). -/
structure Spsrs where
  fiq : Spsr
  svc : Spsr
  abt : Spsr
  irq : Spsr
  und : Spsr
deriving DecidableEq, Repr

/-- The SPSR of a mode; none in USER and SYSTEM (R35). -/
def Spsrs.get? (p : Spsrs) : Mode → Option Spsr
  | .fiq => some p.fiq
  | .supervisor => some p.svc
  | .abort => some p.abt
  | .irq => some p.irq
  | .undefined => some p.und
  | .user => none
  | .system => none

/-- Write the SPSR of a mode; USER and SYSTEM have none, and nothing is written (R35). -/
def Spsrs.put (p : Spsrs) (m : Mode) (v : Spsr) : Spsrs :=
  match m with
  | .fiq => { p with fiq := v }
  | .supervisor => { p with svc := v }
  | .abort => { p with abt := v }
  | .irq => { p with irq := v }
  | .undefined => { p with und := v }
  | .user => p
  | .system => p

end Sys2Proof.Machine
end

