-- ==== Sys2Proof/Machine/Flags.lean ====
section
/-! DEFINITION. Flag arithmetic (spec/40_flags_and_shifter.md R130 to R136) and the condition table
(spec/30_encoding.md R96): pure functions of their arguments. -/

namespace Sys2Proof.Machine

/-- What an adder yields: the 32-bit result, C and V (N and Z follow from the result, R131). -/
structure AluResult where
  value : Word
  carry : Bool
  overflow : Bool
deriving DecidableEq, Repr

/-- The four condition flags (R32). -/
structure Flags where
  n : Bool
  z : Bool
  c : Bool
  v : Bool
deriving DecidableEq, Repr

/-- `Add(a, b)` (R132). -/
def aluAdd (a b : Word) : AluResult :=
  let r := a + b
  { value := r
    carry := decide (2 ^ 32 ≤ a.toNat + b.toNat)
    overflow := (a.msb == b.msb) && (r.msb != a.msb) }

/-- `Sub(a, b)`, C set means no borrow (R133). -/
def aluSub (a b : Word) : AluResult :=
  let r := a - b
  { value := r
    carry := decide (b.toNat ≤ a.toNat)
    overflow := (a.msb != b.msb) && (r.msb != a.msb) }

/-- `Adc(a, b, cin)`: C is the carry out of the 33-bit sum (R134). -/
def aluAdc (a b : Word) (cin : Bool) : AluResult :=
  let sum := a.toNat + b.toNat + cin.toNat
  let r := BitVec.ofNat 32 sum
  { value := r
    carry := decide (2 ^ 32 ≤ sum)
    overflow := (a.msb == b.msb) && (r.msb != a.msb) }

/-- `Sbc(a, b, cin)`, encoded as a + not b + cin (R135). -/
def aluSbc (a b : Word) (cin : Bool) : AluResult :=
  let r := aluAdc a (~~~b) cin
  { value := r.value
    carry := r.carry
    overflow := (a.msb != b.msb) && (r.value.msb != a.msb) }

/-- The flags of an arithmetic result: all four written (R131, R163). -/
def arithFlags (r : AluResult) : Flags :=
  { n := r.value.msb, z := r.value == 0, c := r.carry, v := r.overflow }

/-- The flags of a logical result: N and Z from it, C as given, V as it was (R136). -/
def logicFlags (r : Word) (c v : Bool) : Flags :=
  { n := r.msb, z := r == 0, c := c, v := v }

/-- The flags of a 32-bit multiply: C is set to 0, V preserved (R201). -/
def mulFlags (r : Word) (v : Bool) : Flags :=
  { n := r.msb, z := r == 0, c := false, v := v }

/-- The flags of a 64-bit multiply: N is bit 63, Z the zero-equality of all 64 bits (R131, R201). -/
def mulLongFlags (r : BitVec 64) (v : Bool) : Flags :=
  { n := r.msb, z := r == 0, c := false, v := v }

/-- The flags of a PSR. -/
def Psr.flags {μ : Type} (p : Psr μ) : Flags := { n := p.n, z := p.z, c := p.c, v := p.v }

/-- A PSR with other flags; I, F, T and M stay. -/
def Psr.withFlags {μ : Type} (p : Psr μ) (f : Flags) : Psr μ :=
  { p with n := f.n, z := f.z, c := f.c, v := f.v }

/-- `CondPassed(cond)` (R96). -/
def condPassed (c : Cond) (f : Flags) : Bool :=
  match c with
  | .eq => f.z
  | .ne => !f.z
  | .cs => f.c
  | .cc => !f.c
  | .mi => f.n
  | .pl => !f.n
  | .vs => f.v
  | .vc => !f.v
  | .hi => f.c && !f.z
  | .ls => !f.c || f.z
  | .ge => f.n == f.v
  | .lt => f.n != f.v
  | .gt => !f.z && (f.n == f.v)
  | .le => f.z || (f.n != f.v)
  | .al => true

end Sys2Proof.Machine
end

