-- ==== Sys2Proof/Config.lean ====
section
/-! DEFINITION. What an implementation fixes: the named parameters of spec/00_scope.md R9 with the spec's defaults, the
calls the core can make on its bus (spec/20_memory.md R60), and the one uninterpreted value of the model, the bus's own
cycle accounting (spec/70_reset_and_hazards.md R510). -/

namespace Sys2Proof

/-- What an undefined or unallocated encoding does (`UND_POLICY`, R9, D7). -/
inductive UndPolicy where
  | trap
  | nop
deriving DecidableEq, Repr

/-- What an ARM word with condition field 1111 does (`COND_NV`, R9, D6). -/
inductive CondNv where
  | refuse
  | never
deriving DecidableEq, Repr

/-- What is added to the instruction's address when r15 is the register stored (`STORE_PC_BIAS`, R9, D11). -/
inductive StorePcBias where
  | eight
  | twelve
deriving DecidableEq, Repr

/-- The parameters of R9 that bear on a step.
`INIT` is `Machine.Init`, the argument of `Machine.State.initialise`; `STOP` is an argument of `Machine.runUntil`. -/
structure Config where
  hasBlx : Bool
  undPolicy : UndPolicy
  condNv : CondNv
  storePcBias : StorePcBias
  thumbHiregPcAlign : Bool
deriving DecidableEq, Repr

/-- The default of every parameter: "the default is the value this spec specifies" (R9). -/
def Config.default : Config :=
  { hasBlx := true, undPolicy := .trap, condNv := .refuse, storePcBias := .eight, thumbHiregPcAlign := true }

/-- The width of one bus access (R72: no access is wider than a word). -/
inductive Width where
  | byte
  | half
  | word
deriving DecidableEq, Repr

/-- The classification of the end-of-step fetch (R436, R511).
The types `NONSEQUENTIAL` and `INTERNAL` are not here: the spec fixes no access that carries them (D42). -/
inductive CycleType where
  | sequential
  | branch
deriving DecidableEq, Repr

/-- One indivisible call of the core on its bus (R60, R73). -/
inductive BusCall where
  | read (w : Width) (addr : Word)
  | write (w : Width) (addr : Word) (value : Word)
  | fetch (w : Width) (addr : Word) (kind : CycleType)
deriving DecidableEq, Repr

/-- `bus.getMemoryAccessCycles()` after the calls of one step: the bus computes it and the spec gives no number for it
(R510, D42), so it is a free value, uninterpreted (log entry 12). -/
opaque Config.memoryAccessCycles : List BusCall → Nat

end Sys2Proof
end

