-- ==== Sys2Proof/Machine/Memory.lean ====
section
/-! DEFINITION. The plain memory behind the bus (spec/20_memory.md R60 to R69): a list of (address, byte) pairs in one
canonical form, and the six bus functions over it. Little-endian, R69. -/

namespace Sys2Proof.Machine

/-- Memory as data: addresses strictly rising, no entry equal to what an unlisted address reads as. -/
abbrev Memory := List Host.Cell

/-- What an address reads as that nothing has written: DESIGN CHOICE, log entry 3 (the spec leaves memory contents to
the platform, R68, R80). -/
def Memory.background : Byte := 0

/-- The byte at an address. -/
def Memory.read : Memory → Nat → Byte
  | [], _ => Memory.background
  | (k, b) :: m, a => if k = a then b else Memory.read m a

/-- Put an entry in front, unless it is what an unlisted address reads as. -/
def Memory.consCell (a : Nat) (v : Byte) (m : Memory) : Memory :=
  if v = Memory.background then m else (a, v) :: m

/-- Write the byte at an address, keeping the canonical form. -/
def Memory.write : Memory → Nat → Byte → Memory
  | [], a, v => Memory.consCell a v []
  | (k, b) :: m, a, v =>
    if a < k then Memory.consCell a v ((k, b) :: m)
    else if a = k then Memory.consCell a v m
    else (k, b) :: Memory.write m a v

/-- Every listed address is at least `lo`, addresses rise strictly and stay below 2^32, and no entry is the background. -/
def Memory.wfFrom : Nat → Memory → Bool
  | _, [] => true
  | lo, (k, b) :: m =>
    decide (lo ≤ k) && decide (k < 2 ^ 32) && decide (b ≠ Memory.background) && Memory.wfFrom (k + 1) m

/-- The canonical form. -/
def Memory.wf (m : Memory) : Bool := Memory.wfFrom 0 m

/-- `read8` (R61, R69): every bit of the address is used. -/
def Memory.read8 (m : Memory) (a : Word) : Byte := Memory.read m a.toNat

/-- The halfword address the bus uses: bit 0 ignored (R62). -/
def halfAddr (a : Word) : Word := a &&& ~~~(1#32)

/-- The word address the bus uses: bits 1:0 ignored (R63). -/
def wordAddr (a : Word) : Word := a &&& ~~~(3#32)

/-- `read16` (R62, R69). -/
def Memory.read16 (m : Memory) (a : Word) : Half :=
  m.read8 (halfAddr a + 1) ++ m.read8 (halfAddr a)

/-- `read32` (R63, R69). -/
def Memory.read32 (m : Memory) (a : Word) : Word :=
  m.read8 (wordAddr a + 3) ++ m.read8 (wordAddr a + 2) ++ m.read8 (wordAddr a + 1) ++ m.read8 (wordAddr a)

/-- `write8` (R64, R69). -/
def Memory.write8 (m : Memory) (a : Word) (v : Byte) : Memory := Memory.write m a.toNat v

/-- `write16` at the even address below (R65, R69). -/
def Memory.write16 (m : Memory) (a : Word) (v : Half) : Memory :=
  (m.write8 (halfAddr a) (v.extractLsb' 0 8)).write8 (halfAddr a + 1) (v.extractLsb' 8 8)

/-- `write32` at the word-aligned address below (R66, R69). -/
def Memory.write32 (m : Memory) (a : Word) (v : Word) : Memory :=
  (((m.write8 (wordAddr a) (v.extractLsb' 0 8)).write8 (wordAddr a + 1) (v.extractLsb' 8 8)).write8
    (wordAddr a + 2) (v.extractLsb' 16 8)).write8 (wordAddr a + 3) (v.extractLsb' 24 8)

end Sys2Proof.Machine
end

