-- ==== Sys2Proof/Machine/State.lean ====
section
/-! DEFINITION. The state of the machine as plain data (spec/10_state.md R20 to R50): the 31 register cells, the CPSR, the
five SPSRs, the prefetch slot; with them the core's inputs (memory behind the bus, the words IME, IE, IF), the parameters
of R9, and the step-local values of R432. Also the reasons a step can stop, and the state after initialisation (R45). -/

namespace Sys2Proof.Machine

/-- A physical general-register cell (R22). -/
inductive Cell where
  /-- r0 to r15 of the general (USER/SYSTEM) set. -/
  | gen (k : Fin 16)
  /-- r8_fiq to r14_fiq. -/
  | fiq (k : Fin 7)
  /-- r13_svc and r14_svc. -/
  | svc (k : Fin 2)
  /-- r13_abt and r14_abt. -/
  | abt (k : Fin 2)
  /-- r13_irq and r14_irq. -/
  | irq (k : Fin 2)
  /-- r13_und and r14_und. -/
  | und (k : Fin 2)
deriving DecidableEq, Repr

/-- The place of a cell among the 31 (R7, R22). -/
def Cell.idx : Cell → Fin 31
  | .gen k => ⟨k.val, by omega⟩
  | .fiq k => ⟨16 + k.val, by omega⟩
  | .svc k => ⟨23 + k.val, by omega⟩
  | .abt k => ⟨25 + k.val, by omega⟩
  | .irq k => ⟨27 + k.val, by omega⟩
  | .und k => ⟨29 + k.val, by omega⟩

/-- The prefetch slot (R40): one instruction word and the address it was fetched from.
In THUMB state only the low 16 bits of the word are meaningful. -/
structure Slot where
  word : Word
  addr : Word
deriving DecidableEq, Repr

/-- The interrupt words the core samples at the top of a step and never writes (R42, R450). -/
structure Irq where
  ime : Bool
  ie : BitVec 14
  iff : BitVec 14
deriving DecidableEq, Repr

/-- What lives within one step (R432): the address `ia` of the instruction being executed, the mark `branched` (R437),
and the bus calls made so far, in order (R73).
The step begins by setting all three, so nothing is carried from one step to the next; after a step they are its output
(R431). -/
structure StepLocals where
  ia : Word
  branched : Bool
  calls : List BusCall
deriving DecidableEq, Repr

/-- The machine's state. -/
structure State where
  regs : Vector Word 31
  cpsr : Cpsr
  spsrs : Spsrs
  slot : Slot
  mem : Memory
  irq : Irq
  cfg : Config
  now : StepLocals
deriving DecidableEq, Repr

/-- The machine has no fault: "the block has no fault state and never stops" (spec/93_implementation_defined.md, Part 1;
R68, R71). A closed type without constructors, so no step can answer a fault. -/
inductive Fault where
deriving DecidableEq, Repr

/-- Why a step has no meaning. Every one of them is the spec's own `refuse` (R16) and is safe: nothing can be proved of a
run through it. -/
inductive Refusal where
  /-- Raised by `exec` for an instruction without a meaning; safe. -/
  | notModelled (mnemonic : String)
  /-- Raised by `State.undecoded`: an ARM word with condition field 1111 under `COND_NV = refuse` (R97); safe. -/
  | conditionNv
  /-- Raised by the six multiplies: a restricted operand combination (R202); safe. -/
  | restrictedMultiply
  /-- Raised by every write of CPSR.M: a value that is no mode (R229); safe. -/
  | unrecognisedMode
  /-- Raised by MSR: a write of the SPSR in USER or SYSTEM mode, which have none (R221); safe. -/
  | noSpsrToWrite
  /-- Raised where r15 is forbidden as an operand (R231, R242, R243, R259, R261, R291); safe. -/
  | forbiddenR15
  /-- Raised by the halfword and signed transfers: post-indexed with W set (R259); safe. -/
  | halfwordPostIndexedW
  /-- Raised by the block transfers: an empty register list (R290, R395, R400); safe. -/
  | emptyRegisterList
  /-- Raised by the user-bank block transfers: writeback asked for (R285, R289); safe. -/
  | userBankWriteback
deriving DecidableEq, Repr

/-- The parameter `INIT` (R9, R50): what initialisation leaves unstated. The cells, flags and saved registers that R45
states are overridden by `State.initialise`; memory, the interrupt words and the parameters are the platform's (R500). -/
structure Init where
  regs : Vector Word 31
  n : Bool
  v : Bool
  i : Bool
  f : Bool
  spsrs : Spsrs
  mem : Memory
  irq : Irq
  cfg : Config
deriving DecidableEq, Repr

/-- The address of the first instruction (R8, R45). -/
def entryPoint : Word := 0x08000000

/-- The state after initialisation for a given `INIT` (R45, R490). -/
def State.initialise (init : Init) : State :=
  { regs := (((((init.regs.set (Cell.gen 15).idx entryPoint).set (Cell.gen 0).idx 0x08000000#32).set
      (Cell.gen 1).idx 0x000000EA#32).set (Cell.gen 13).idx 0x03007F00#32).set
      (Cell.svc 0).idx 0x03007FE0#32).set (Cell.irq 0).idx 0x03007FA0#32
    cpsr := { n := init.n, z := true, c := true, v := init.v, i := init.i, f := init.f, t := false, m := .system }
    spsrs := init.spsrs
    slot := { word := init.mem.read32 entryPoint, addr := entryPoint }
    mem := init.mem
    irq := init.irq
    cfg := init.cfg
    now := { ia := entryPoint, branched := false, calls := [] } }

/-- A saved status of all zeros. -/
def Psr.zero : Spsr :=
  { n := false, z := false, c := false, v := false, i := false, f := false, t := false, m := 0 }

/-- The `INIT` the model names: every unstated register cell, flag and SPSR zero (DESIGN CHOICE, log entry 1), memory with
nothing listed (log entry 3), no interrupt requested (log entry 2), every parameter at its default (R9). -/
def Init.zero : Init :=
  { regs := Vector.replicate 31 0#32
    n := false, v := false, i := false, f := false
    spsrs := { fiq := Psr.zero, svc := Psr.zero, abt := Psr.zero, irq := Psr.zero, und := Psr.zero }
    mem := []
    irq := { ime := false, ie := 0, iff := 0 }
    cfg := Config.default }

/-- The machine right after reset: the table of R45, with `Init.zero` for what it leaves unstated. -/
def State.reset : State := State.initialise Init.zero

end Sys2Proof.Machine
end

