-- ==== Sys2Proof/Machine/Ops.lean ====
section
/-! DEFINITION. The named operations every meaning is written over: registers through the view of a mode (R22 to R25),
the program counter (R14, R26), the bus (R60 to R66), the condition check (R96), taking an exception and returning from
one (R452 to R459, R164), what an undefined encoding does (R308, R309, R425), and the two ends of a step (R432, R433,
R436, R438). -/

namespace Sys2Proof.Machine

/-- What a step or a meaning answers. -/
abbrev Answer := Host.Outcome State Fault Refusal

/-! ## Registers -/

/-- `cell(mode, i)`: the cell the view of a mode maps an index to (R23). -/
def cell (m : Mode) (i : Reg) : Cell :=
  if i.val ≤ 7 ∨ i.val = 15 then .gen i
  else if m = .fiq then .fiq ⟨(i.val - 8) % 7, by omega⟩
  else if i.val ≤ 12 then .gen i
  else
    let k : Fin 2 := ⟨(i.val - 13) % 2, by omega⟩
    match m with
    | .user => .gen i
    | .system => .gen i
    | .supervisor => .svc k
    | .abort => .abt k
    | .irq => .irq k
    | .undefined => .und k
    | .fiq => .fiq ⟨(i.val - 8) % 7, by omega⟩

/-- The contents of a cell (R21). -/
def State.getCell (s : State) (c : Cell) : Word := s.regs.get c.idx

/-- Write a cell. -/
def State.setCell (s : State) (c : Cell) (v : Word) : State := { s with regs := s.regs.set c.idx v }

/-- The current mode is CPSR.M and nothing else (R24). -/
def State.mode (s : State) : Mode := s.cpsr.m

/-- `x[i]` read: the current mode's view, without any bias (R12). -/
def State.x (s : State) (i : Reg) : Word := s.getCell (cell s.mode i)

/-- `x[i] <- v` (R12); no meaning calls it with i = 15 (R14). -/
def State.setX (s : State) (i : Reg) (v : Word) : State := s.setCell (cell s.mode i) v

/-- The stored r15 (R26). -/
def State.pc (s : State) : Word := s.getCell (.gen 15)

/-- Put a value into the stored r15. -/
def State.setPc (s : State) (v : Word) : State := s.setCell (.gen 15) v

/-- r15 as an ARM operand: `RegA` (R13, R152). -/
def State.regA (s : State) (i : Reg) : Word := if i = 15 then s.now.ia + 8 else s.x i

/-- r15 as an operand of data processing with a register-specified shift: `RegA12` (R13, R152). -/
def State.regA12 (s : State) (i : Reg) : Word := if i = 15 then s.now.ia + 12 else s.x i

/-- r15 as a THUMB operand: `RegT` (R13, R152). -/
def State.regT (s : State) (i : Reg) : Word :=
  if i = 15 then (s.now.ia + 4) &&& ~~~(2#32) else s.x i

/-- A low register index among the sixteen (R320). -/
def lowReg (i : LowReg) : Reg := i.castLE (by omega)

/-- Replace the four condition flags. -/
def State.setFlags (s : State) (f : Flags) : State := { s with cpsr := s.cpsr.withFlags f }

/-- Replace the flags when asked to (the S bit of R163, R201). -/
def State.setFlagsIf (s : State) (b : Bool) (f : Flags) : State := if b then s.setFlags f else s

/-! ## The program counter -/

/-- An address aligned for a state: halfword in THUMB, word in ARM (R14, R28). -/
def alignFor (thumb : Bool) (a : Word) : Word := if thumb then halfAddr a else wordAddr a

/-- `pc <- target`: the only way an instruction writes r15; aligned by CPSR.T as it stands (R14). -/
def State.branchTo (s : State) (target : Word) : State :=
  { s.setPc (alignFor s.cpsr.t target) with now := { s.now with branched := true } }

/-- Write a destination register, r15 by a branch (R162, R244, R352). -/
def State.writeReg (s : State) (i : Reg) (v : Word) : State := if i = 15 then s.branchTo v else s.setX i v

/-- BX and BLX: the state from bit 0 of the target, then the branch aligned by the new state (R303, R304, R356). -/
def State.exchangeTo (s : State) (target : Word) : State :=
  { s with cpsr := { s.cpsr with t := target.getLsbD 0 } }.branchTo target

/-- The length of an instruction in the state of CPSR.T (R90, R433). -/
def instrBytes (thumb : Bool) : Word := if thumb then 2 else 4

/-- The address of the instruction after the one being executed: the return address of SWI and Undefined (R455, R458). -/
def State.nextInstr (s : State) : Word := s.now.ia + instrBytes s.cpsr.t

/-! ## The bus -/

/-- Note a bus call made by this step (R73, R431). -/
def State.noteCall (s : State) (c : BusCall) : State :=
  { s with now := { s.now with calls := s.now.calls ++ [c] } }

/-- What `MemRead(addr, n)` returns, zero-extended (R61 to R63). -/
def State.peek (s : State) (w : Width) (a : Word) : Word :=
  match w with
  | .byte => (s.mem.read8 a).setWidth 32
  | .half => (s.mem.read16 a).setWidth 32
  | .word => s.mem.read32 a

/-- `MemRead(addr, n)` as one bus call (R61 to R63, R73): the value and the state after the call. -/
def State.busRead (s : State) (w : Width) (a : Word) : Word × State := (s.peek w a, s.noteCall (.read w a))

/-- The address a write of a width reaches: the core aligns it itself (R64 to R66). -/
def storeAddr (w : Width) (a : Word) : Word :=
  match w with
  | .byte => a
  | .half => halfAddr a
  | .word => wordAddr a

/-- The part of a register a write of a width carries (R64 to R66). -/
def storePart (w : Width) (v : Word) : Word :=
  match w with
  | .byte => (v.extractLsb' 0 8).setWidth 32
  | .half => (v.extractLsb' 0 16).setWidth 32
  | .word => v

/-- `MemWrite(addr, n, v)` as one bus call (R64 to R66, R73). -/
def State.busWrite (s : State) (w : Width) (a : Word) (v : Word) : State :=
  let m := match w with
    | .byte => s.mem.write8 a (v.extractLsb' 0 8)
    | .half => s.mem.write16 a (v.extractLsb' 0 16)
    | .word => s.mem.write32 a v
  { s with mem := m }.noteCall (.write w (storeAddr w a) (storePart w v))

/-! ## The condition check -/

/-- An ARM instruction whose condition fails changes nothing: the step has advanced r15 already (R96, R434). -/
def State.ifCond (s : State) (c : Cond) (body : Answer) : Answer :=
  if condPassed c s.cpsr.flags then body else .next s

/-! ## Exceptions -/

/-- `ExceptionEntry(m, ret, vec)`: the one entry sequence (R459). N, Z, C, V and F keep their values. -/
def State.exceptionEntry (s : State) (m : Mode) (ret vec : Word) : State :=
  let entered : State :=
    { s with
      cpsr := { s.cpsr with m := m, i := true, t := false }
      spsrs := s.spsrs.put m s.cpsr.toSpsr }
  (entered.setX 14 ret).branchTo vec

/-- The IRQ vector (R8). -/
def irqVector : Word := 0x00000018

/-- The SWI vector (R8). -/
def swiVector : Word := 0x00000008

/-- The Undefined-instruction vector (R8, R458). -/
def undefinedVector : Word := 0x00000004

/-- IRQ entry, taken where the stored r15 is still the address of the instruction not executed (R452). -/
def State.takeIrq (s : State) : State := s.exceptionEntry .irq (s.pc + 4) irqVector

/-- SWI entry (R455). -/
def State.takeSwi (s : State) : State := s.exceptionEntry .supervisor s.nextInstr swiVector

/-- Undefined-instruction entry (R458). -/
def State.takeUndefined (s : State) : State := s.exceptionEntry .undefined s.nextInstr undefinedVector

/-- `CPSR <- SPSR`, the return from an exception (R164, R287, R462).
In USER and SYSTEM mode the SPSR reads as the CPSR and nothing changes (R35). None when the saved mode is unrecognised
(R229). -/
def State.restoreCpsr (s : State) : Option State :=
  match s.spsrs.get? s.mode with
  | none => some s
  | some p => p.toCpsr?.map fun c => { s with cpsr := c }

/-- Run on after `CPSR <- SPSR`, refusing an unrecognised mode (R229). -/
def State.afterRestore (s : State) (k : State → State) : Answer :=
  match s.restoreCpsr with
  | some t => .next (k t)
  | none => .refused .unrecognisedMode

/-- What the undefined pattern and every unallocated encoding do (R308, R309, R425). -/
def State.undefinedRoute (s : State) : Answer :=
  match s.cfg.undPolicy with
  | .trap => .next s.takeUndefined
  | .nop => .next s

/-- What an ARM word with condition field 1111 does (R97, R310). -/
def State.conditionNv (s : State) : Answer :=
  match s.cfg.condNv with
  | .refuse => .refused .conditionNv
  | .never => .next s

/-! ## The two ends of a step -/

/-- Set the step-local values: `ia` is the stored r15, no bus call and no branch yet (R432). -/
def State.openStep (s : State) : State := { s with now := { ia := s.pc, branched := false, calls := [] } }

/-- The PC advance, before the instruction executes (R433). -/
def State.advance (s : State) : State := s.setPc (s.pc + instrBytes s.cpsr.t)

/-- `irq_request and CPSR.I == 0` (R450, R451). -/
def State.irqTaken (s : State) : Bool :=
  s.irq.ime && decide (s.irq.ie &&& s.irq.iff ≠ 0) && !s.cpsr.i

/-- The slot a fetch at the stored r15 gives: 2 bytes in THUMB state, 4 in ARM state (R81, R436). -/
def State.fetched (s : State) : Slot :=
  { word := if s.cpsr.t then (s.mem.read16 s.pc).setWidth 32 else s.mem.read32 s.pc
    addr := s.pc }

/-- The slot refill, last act of every step, by the T value now; its cycle type is BRANCH exactly when the step branched
(R436, R437, R511). -/
def State.refill (s : State) : State :=
  { s with slot := s.fetched }.noteCall
    (.fetch (if s.cpsr.t then .half else .word) s.pc (if s.now.branched then .branch else .sequential))

/-- The cycle count a step returns, read off the state it leaves: `1 + bus.getMemoryAccessCycles()`, an uninterpreted
output (R510). -/
def State.cycleCount (s : State) : Nat := 1 + Config.memoryAccessCycles s.now.calls

end Sys2Proof.Machine
end

