-- ==== Sys2Proof/Machine/Operands.lean ====
section
/-! DEFINITION. Operand forms: the barrel shifter (spec/40_flags_and_shifter.md R140 to R150), operand 2 of ARM data
processing (R153), the address offsets of the transfers (R242, R259), and the register lists of the block transfers
(R280, R281, R395, R400). -/

namespace Sys2Proof.Machine

/-! ## The barrel shifter -/

/-- `Shift(LSL, v, n, cin)` (R142). -/
def shiftLsl (v : Word) (n : Nat) (cin : Bool) : Word × Bool :=
  if n = 0 then (v, cin)
  else if n < 32 then (v <<< n, v.getLsbD (32 - n))
  else if n = 32 then (0, v.getLsbD 0)
  else (0, false)

/-- `Shift(LSR, v, n, cin)` (R143). -/
def shiftLsr (v : Word) (n : Nat) (cin : Bool) : Word × Bool :=
  if n = 0 then (v, cin)
  else if n < 32 then (v >>> n, v.getLsbD (n - 1))
  else if n = 32 then (0, v.getLsbD 31)
  else (0, false)

/-- `Shift(ASR, v, n, cin)` (R144). -/
def shiftAsr (v : Word) (n : Nat) (cin : Bool) : Word × Bool :=
  if n = 0 then (v, cin)
  else if n < 32 then (v.sshiftRight n, v.getLsbD (n - 1))
  else (if v.getLsbD 31 then 0xFFFFFFFF#32 else 0, v.getLsbD 31)

/-- `Shift(ROR, v, n, cin)` (R145). -/
def shiftRor (v : Word) (n : Nat) (cin : Bool) : Word × Bool :=
  if n = 0 then (v, cin)
  else if n % 32 = 0 then (v, v.getLsbD 31)
  else (v.rotateRight (n % 32), v.getLsbD (n % 32 - 1))

/-- `Shift(type, v, n, cin)`: the value and the carry-out (R140). -/
def shift (ty : ShiftType) (v : Word) (n : Nat) (cin : Bool) : Word × Bool :=
  match ty with
  | .lsl => shiftLsl v n cin
  | .lsr => shiftLsr v n cin
  | .asr => shiftAsr v n cin
  | .ror => shiftRor v n cin

/-- `RRX(v, cin)`: the 33-bit right rotate through carry (R146). -/
def rrx (v : Word) (cin : Bool) : Word × Bool :=
  ((v >>> 1) ||| ((BitVec.ofBool cin).setWidth 32 <<< 31), v.getLsbD 0)

/-- `ShiftImm`: an immediate amount, the encoded amount 0 having a meaning per type (R141). -/
def shiftImm (ty : ShiftType) (v : Word) (imm5 : BitVec 5) (cin : Bool) : Word × Bool :=
  match ty with
  | .lsl => shift .lsl v imm5.toNat cin
  | .lsr => shift .lsr v (if imm5 = 0 then 32 else imm5.toNat) cin
  | .asr => shift .asr v (if imm5 = 0 then 32 else imm5.toNat) cin
  | .ror => if imm5 = 0 then rrx v cin else shift .ror v imm5.toNat cin

/-- `ShiftReg`: a register amount, only its low byte used (R147). -/
def shiftReg (ty : ShiftType) (v rs : Word) (cin : Bool) : Word × Bool :=
  shift ty v (rs.extractLsb' 0 8).toNat cin

/-- The value of a rotated 8-bit immediate (R123, R220). -/
def rotatedImm (rot : BitVec 4) (imm8 : BitVec 8) : Word := (imm8.setWidth 32 : Word).rotateRight (2 * rot.toNat)

/-- `ImmOperand(rot, imm8, cin)` (R150). -/
def immOperand (rot : BitVec 4) (imm8 : BitVec 8) (cin : Bool) : Word × Bool :=
  (rotatedImm rot imm8, if rot = 0 then cin else (rotatedImm rot imm8).getLsbD 31)

/-! ## Operand 2 -/

/-- The three forms of operand 2 (R99). -/
inductive Operand2 where
  | imm (rot : BitVec 4) (imm8 : BitVec 8)
  | shImm (amount : BitVec 5) (ty : ShiftType) (rm : Reg)
  | shReg (rs : Reg) (ty : ShiftType) (rm : Reg)
deriving DecidableEq, Repr

/-- `Op2(w, cin)`: the value and the shifter's carry (R153). -/
def State.operand2 (s : State) (o : Operand2) : Word × Bool :=
  match o with
  | .imm rot imm8 => immOperand rot imm8 s.cpsr.c
  | .shImm amount ty rm => shiftImm ty (s.regA rm) amount s.cpsr.c
  | .shReg rs ty rm => shiftReg ty (s.regA12 rm) (s.regA12 rs) s.cpsr.c

/-- The first operand: r15 reads `ia + 12` beside a register-specified shift, else `ia + 8` (R161). -/
def State.operand1 (s : State) (o : Operand2) (rn : Reg) : Word :=
  match o with
  | .shReg _ _ _ => s.regA12 rn
  | _ => s.regA rn

/-! ## Addresses of single transfers -/

/-- The offset of a single, halfword or signed transfer (R241, R242, R259). -/
inductive Offset where
  | imm12 (imm : BitVec 12)
  | imm8 (imm : BitVec 8)
  | shifted (amount : BitVec 5) (ty : ShiftType) (rm : Reg)
  | plain (rm : Reg)
deriving DecidableEq, Repr

/-- The offset's value; the shifter's carry is discarded (R242). -/
def State.offset (s : State) (o : Offset) : Word :=
  match o with
  | .imm12 imm => imm.setWidth 32
  | .imm8 imm => imm.setWidth 32
  | .shifted amount ty rm => (shiftImm ty (s.x rm) amount s.cpsr.c).1
  | .plain rm => s.x rm

/-- The offset names r15 as its register, which is refused (R242, R259). -/
def Offset.usesR15 : Offset → Bool
  | .imm12 _ => false
  | .imm8 _ => false
  | .shifted _ _ rm => rm == 15
  | .plain rm => rm == 15

/-- Pre- or post-indexed, added or subtracted, with the W bit (R103, R104). -/
structure Indexing where
  pre : Bool
  up : Bool
  w : Bool
deriving DecidableEq, Repr

/-- Post-indexing always writes back (R241). -/
def Indexing.writesBack (ix : Indexing) : Bool := !ix.pre || ix.w

/-- `target` of R241: base plus or minus offset, modulo 2^32. -/
def State.indexTarget (s : State) (ix : Indexing) (rn : Reg) (o : Offset) : Word :=
  if ix.up then s.regA rn + s.offset o else s.regA rn - s.offset o

/-- `addr` of R241: the address accessed. -/
def State.indexAddr (s : State) (ix : Indexing) (rn : Reg) (o : Offset) : Word :=
  if ix.pre then s.indexTarget ix rn o else s.regA rn

/-! ## Data of single transfers -/

/-- What a load does with the data it reads (R70, R370). -/
inductive LoadKind where
  | word
  | byte
  | half
  | sbyte
  | shalf
deriving DecidableEq, Repr

/-- The width of the one bus read a load makes; a signed halfword load at an odd address reads a byte (R258). -/
def LoadKind.width (k : LoadKind) (a : Word) : Width :=
  match k with
  | .word => .word
  | .byte => .byte
  | .half => .half
  | .sbyte => .byte
  | .shalf => if a.getLsbD 0 then .byte else .half

/-- The register value made of the data read: rotated, zero- or sign-extended (R246, R248, R256, R257, R258). -/
def LoadKind.extend (k : LoadKind) (a : Word) (data : Word) : Word :=
  match k with
  | .word => data.rotateRight ((a &&& 3#32).toNat * 8)
  | .byte => data
  | .half => data.rotateRight ((a &&& 1#32).toNat * 8)
  | .sbyte => (data.setWidth 8).signExtend 32
  | .shalf => if a.getLsbD 0 then (data.setWidth 8).signExtend 32 else (data.setWidth 16).signExtend 32

/-- A load: one bus read, and the value for the register (R370). -/
def State.load (s : State) (k : LoadKind) (a : Word) : Word × State :=
  let r := s.busRead (k.width a) a
  (k.extend a r.1, r.2)

/-- The value stored for a register: r15 stores `ia + STORE_PC_BIAS` (R245, R288). -/
def State.storeValue (s : State) (i : Reg) : Word :=
  if i = 15 then s.now.ia + (match s.cfg.storePcBias with | .eight => 8 | .twelve => 12) else s.x i

/-! ## Register lists -/

/-- The sixteen register indices, ascending. -/
def allRegs : List Reg := [0, 1, 2, 3, 4, 5, 6, 7, 8, 9, 10, 11, 12, 13, 14, 15]

/-- The registers of a list, ascending (R280). -/
def listedRegs (list : BitVec 16) : List Reg := allRegs.filter fun i => list.getLsbD i.val

/-- `4 n` for n listed registers. -/
def listBytes (list : BitVec 16) : Word := BitVec.ofNat 32 (4 * (listedRegs list).length)

/-- The four addressing modes of a block transfer (R106, R281). -/
structure BlockMode where
  pre : Bool
  up : Bool
deriving DecidableEq, Repr

/-- The lowest address of the transfer (R281). -/
def BlockMode.start (b : BlockMode) (base bytes : Word) : Word :=
  match b.pre, b.up with
  | false, true => base
  | true, true => base + 4
  | false, false => base - bytes + 4
  | true, false => base - bytes

/-- The value written back to the base (R281). -/
def BlockMode.final (b : BlockMode) (base bytes : Word) : Word :=
  if b.up then base + bytes else base - bytes

/-- Read a run of words, one bus call each, at ascending addresses; never rotated (R282, R283). -/
def State.loadWords (s : State) (a : Word) : Nat → List Word × State
  | 0 => ([], s)
  | n + 1 =>
    let r := s.busRead .word a
    let rest := State.loadWords r.2 (a + 4) n
    (r.1 :: rest.1, rest.2)

/-- Write a run of words, one bus call each, at ascending addresses (R282, R283). -/
def State.storeWords (s : State) (a : Word) : List Word → State
  | [] => s
  | v :: vs => State.storeWords (s.busWrite .word a v) (a + 4) vs

/-- Write registers through the view of a mode, in order, r15 left out (R284, R285). -/
def State.setRegs (s : State) (view : Mode) : List (Reg × Word) → State
  | [] => s
  | (i, v) :: rest => State.setRegs (if i = 15 then s else s.setCell (cell view i) v) view rest

/-- The word loaded for r15, when it is listed. -/
def loadedPc : List (Reg × Word) → Option Word
  | [] => none
  | (i, v) :: rest => if i = 15 then some v else loadedPc rest

end Sys2Proof.Machine
end

