-- ==== Sys2Proof/Machine/ArmBlock.lean ====
section
/-! DEFINITION. ARM block data transfer (spec/45_arm_block_transfer.md R280 to R296). The THUMB forms 14 and 15 share the
operations (R395, R400). -/

namespace Sys2Proof.Machine

/-- The effects of a load of a non-empty list, but for r15: the words read, the base written back through the current
mode, then the registers through `view`; and the word loaded for r15, if it is listed (R284, R285, R287). -/
def State.doBlockLoad (s : State) (b : BlockMode) (w : Bool) (rn : Reg) (view : Mode) (list : BitVec 16) :
    State × Option Word :=
  let base := s.x rn
  let bytes := listBytes list
  let r := s.loadWords (b.start base bytes) (listedRegs list).length
  let values := (listedRegs list).zip r.1
  let t := if w then r.2.setX rn (b.final base bytes) else r.2
  (t.setRegs view values, loadedPc values)

/-- The value stored for a listed register: r15 as in R288; the base, when written back and not first in the list, as it
will be; else the register as `view` sees it (R286, R289). -/
def State.blockValue (s : State) (b : BlockMode) (w : Bool) (rn : Reg) (view : Mode) (list : BitVec 16) (i : Reg) : Word :=
  if i = 15 then s.storeValue 15
  else if i = rn ∧ w = true ∧ (listedRegs list).head? ≠ some i then b.final (s.x rn) (listBytes list)
  else s.getCell (cell view i)

/-- The effects of a store of a non-empty list: the words written in order, then the base (R286, R289). -/
def State.doBlockStore (s : State) (b : BlockMode) (w : Bool) (rn : Reg) (view : Mode) (list : BitVec 16) : State :=
  let base := s.x rn
  let bytes := listBytes list
  let t := s.storeWords (b.start base bytes) ((listedRegs list).map (s.blockValue b w rn view list))
  if w then t.setX rn (b.final base bytes) else t

/-- What refuses every block transfer: an empty list, or r15 as the base (R290, R291). -/
def blockRefusal (rn : Reg) (list : BitVec 16) : Option Refusal :=
  if list = 0 then some .emptyRegisterList
  else if rn = 15 then some .forbiddenR15
  else none

/-- LDM with S = 0 (R284). -/
def State.blockLoad (s : State) (b : BlockMode) (w : Bool) (rn : Reg) (list : BitVec 16) : Answer :=
  match blockRefusal rn list with
  | some why => .refused why
  | none =>
    match s.doBlockLoad b w rn s.mode list with
    | (t, none) => .next t
    | (t, some v) => .next (t.branchTo v)

/-- LDM of the user bank (R285): writeback is refused. -/
def State.blockLoadUser (s : State) (b : BlockMode) (w : Bool) (rn : Reg) (list : BitVec 16) : Answer :=
  match blockRefusal rn list with
  | some why => .refused why
  | none => if w then .refused .userBankWriteback else .next (s.doBlockLoad b false rn .user list).1

/-- LDM with CPSR restore (R287): registers first, through the mode before the restore; then CPSR, then r15 aligned by the
new T. -/
def State.blockLoadRestore (s : State) (b : BlockMode) (w : Bool) (rn : Reg) (list : BitVec 16) : Answer :=
  match blockRefusal rn list with
  | some why => .refused why
  | none =>
    let r := s.doBlockLoad b w rn s.mode list
    r.1.afterRestore fun t => t.branchTo (r.2.getD 0)

/-- STM with S = 0 (R286). -/
def State.blockStore (s : State) (b : BlockMode) (w : Bool) (rn : Reg) (list : BitVec 16) : Answer :=
  match blockRefusal rn list with
  | some why => .refused why
  | none => .next (s.doBlockStore b w rn s.mode list)

/-- STM of the user bank (R289): writeback is refused. -/
def State.blockStoreUser (s : State) (b : BlockMode) (w : Bool) (rn : Reg) (list : BitVec 16) : Answer :=
  match blockRefusal rn list with
  | some why => .refused why
  | none => if w then .refused .userBankWriteback else .next (s.doBlockStore b false rn .user list)

/-- LDM (S = 0) (R284). -/
def execLdm (c : Cond) (p up w : Bool) (rn : Reg) (list : BitVec 16) (s : State) : Answer :=
  s.ifCond c (s.blockLoad ⟨p, up⟩ w rn list)

/-- LDM of the user bank (S = 1, r15 not listed) (R285). -/
def execLdmUser (c : Cond) (p up w : Bool) (rn : Reg) (list : BitVec 15) (s : State) : Answer :=
  s.ifCond c (s.blockLoadUser ⟨p, up⟩ w rn (0#1 ++ list))

/-- LDM with CPSR restore (S = 1, r15 listed) (R287). -/
def execLdmRestore (c : Cond) (p up w : Bool) (rn : Reg) (list : BitVec 15) (s : State) : Answer :=
  s.ifCond c (s.blockLoadRestore ⟨p, up⟩ w rn (1#1 ++ list))

/-- STM (S = 0) (R286). -/
def execStm (c : Cond) (p up w : Bool) (rn : Reg) (list : BitVec 16) (s : State) : Answer :=
  s.ifCond c (s.blockStore ⟨p, up⟩ w rn list)

/-- STM of the user bank (S = 1) (R289). -/
def execStmUser (c : Cond) (p up w : Bool) (rn : Reg) (list : BitVec 16) (s : State) : Answer :=
  s.ifCond c (s.blockStoreUser ⟨p, up⟩ w rn list)

end Sys2Proof.Machine
end

