-- ==== Sys2Proof/Machine/ArmBranch.lean ====
section
/-! DEFINITION. ARM branches, software interrupt and the undefined pattern (spec/46_arm_branch_swi.md R300 to R310). -/

namespace Sys2Proof.Machine

/-- The target of B and BL: `ia + 8` plus the signed word offset, modulo 2^32 (R301, R302). -/
def State.armBranchTarget (s : State) (offset24 : BitVec 24) : Word :=
  s.now.ia + 8 + (offset24.signExtend 32 <<< 2)

/-- B (R301). -/
def execB (c : Cond) (offset24 : BitVec 24) (s : State) : Answer :=
  s.ifCond c (.next (s.branchTo (s.armBranchTarget offset24)))

/-- BL (R302). -/
def execBl (c : Cond) (offset24 : BitVec 24) (s : State) : Answer :=
  s.ifCond c (.next ((s.setX 14 (s.now.ia + 4)).branchTo (s.armBranchTarget offset24)))

/-- BX (R303). -/
def execBx (c : Cond) (rn : Reg) (s : State) : Answer :=
  s.ifCond c (.next (s.exchangeTo (s.regA rn)))

/-- BLX (register), unallocated when `HAS_BLX` is false (R304). -/
def execBlx (c : Cond) (rn : Reg) (s : State) : Answer :=
  s.ifCond c (if s.cfg.hasBlx then .next ((s.setX 14 (s.now.ia + 4)).exchangeTo (s.regA rn))
    else s.undefinedRoute)

/-- SWI; the core ignores the comment field (R306). -/
def execSwi (c : Cond) (_comment24 : BitVec 24) (s : State) : Answer :=
  s.ifCond c (.next s.takeSwi)

/-- the architecturally undefined pattern (R308). -/
def execUndefinedPattern (c : Cond) (s : State) : Answer :=
  s.ifCond c s.undefinedRoute

end Sys2Proof.Machine
end

