-- ==== Sys2Proof/Machine/ArmData.lean ====
section
/-! DEFINITION. ARM data processing (spec/41_arm_data_processing.md R160 to R190): one shared operation over the sixteen
opcodes, and a meaning per instruction and operand form. -/

namespace Sys2Proof.Machine

/-- The sixteen opcodes (R98). -/
inductive DpOp where
  | and | eor | sub | rsb | add | adc | sbc | rsc | tst | teq | cmp | cmn | orr | mov | bic | mvn
deriving DecidableEq, Repr

/-- The twelve opcodes that write Rd; TST, TEQ, CMP and CMN do not (R162, R165). -/
def DpOp.writes : DpOp → Bool
  | .tst => false
  | .teq => false
  | .cmp => false
  | .cmn => false
  | _ => true

/-- The result and the flags it would commit: `a` is Rn, `b` operand 2, `sc` the shifter's carry, `old` the flags before
(R163, R170 to R185, R190). -/
def dpResult (op : DpOp) (a b : Word) (sc : Bool) (old : Flags) : Word × Flags :=
  let logical (r : Word) : Word × Flags := (r, logicFlags r sc old.v)
  let arith (r : AluResult) : Word × Flags := (r.value, arithFlags r)
  match op with
  | .and => logical (a &&& b)
  | .eor => logical (a ^^^ b)
  | .sub => arith (aluSub a b)
  | .rsb => arith (aluSub b a)
  | .add => arith (aluAdd a b)
  | .adc => arith (aluAdc a b old.c)
  | .sbc => arith (aluSbc a b old.c)
  | .rsc => arith (aluSbc b a old.c)
  | .tst => logical (a &&& b)
  | .teq => logical (a ^^^ b)
  | .cmp => arith (aluSub a b)
  | .cmn => arith (aluAdd a b)
  | .orr => logical (a ||| b)
  | .mov => logical b
  | .bic => logical (a &&& ~~~b)
  | .mvn => logical (~~~b)

/-- The whole family (R161 to R165, R190): operands read first, then the result, then the commit.
With Rd = r15 and S = 1 the SPSR is restored, and the branch, if the opcode writes, is aligned by the restored T (R164). -/
def State.dataProcessing (s : State) (op : DpOp) (sb : Bool) (rn rd : Reg) (o : Operand2) : Answer :=
  let b := s.operand2 o
  let r := dpResult op (s.operand1 o rn) b.1 b.2 s.cpsr.flags
  if rd = 15 then
    let commit (t : State) : State := if op.writes then t.branchTo r.1 else t
    if sb then s.afterRestore commit else .next (commit s)
  else
    .next ((if op.writes then s.setX rd r.1 else s).setFlagsIf sb r.2)

/-- AND with a rotated 8-bit immediate (R170). -/
def execAndImm (c : Cond) (sb : Bool) (rn rd : Reg) (rot : BitVec 4) (imm8 : BitVec 8) (s : State) : Answer :=
  s.ifCond c (s.dataProcessing .and sb rn rd (.imm rot imm8))

/-- AND with a register shifted by an immediate amount (R170). -/
def execAndShImm (c : Cond) (sb : Bool) (rn rd : Reg) (amount : BitVec 5) (ty : ShiftType) (rm : Reg) (s : State) : Answer :=
  s.ifCond c (s.dataProcessing .and sb rn rd (.shImm amount ty rm))

/-- AND with a register shifted by a register amount (R170). -/
def execAndShReg (c : Cond) (sb : Bool) (rn rd rs : Reg) (ty : ShiftType) (rm : Reg) (s : State) : Answer :=
  s.ifCond c (s.dataProcessing .and sb rn rd (.shReg rs ty rm))

/-- EOR with a rotated 8-bit immediate (R171). -/
def execEorImm (c : Cond) (sb : Bool) (rn rd : Reg) (rot : BitVec 4) (imm8 : BitVec 8) (s : State) : Answer :=
  s.ifCond c (s.dataProcessing .eor sb rn rd (.imm rot imm8))

/-- EOR with a register shifted by an immediate amount (R171). -/
def execEorShImm (c : Cond) (sb : Bool) (rn rd : Reg) (amount : BitVec 5) (ty : ShiftType) (rm : Reg) (s : State) : Answer :=
  s.ifCond c (s.dataProcessing .eor sb rn rd (.shImm amount ty rm))

/-- EOR with a register shifted by a register amount (R171). -/
def execEorShReg (c : Cond) (sb : Bool) (rn rd rs : Reg) (ty : ShiftType) (rm : Reg) (s : State) : Answer :=
  s.ifCond c (s.dataProcessing .eor sb rn rd (.shReg rs ty rm))

/-- SUB with a rotated 8-bit immediate (R172). -/
def execSubImm (c : Cond) (sb : Bool) (rn rd : Reg) (rot : BitVec 4) (imm8 : BitVec 8) (s : State) : Answer :=
  s.ifCond c (s.dataProcessing .sub sb rn rd (.imm rot imm8))

/-- SUB with a register shifted by an immediate amount (R172). -/
def execSubShImm (c : Cond) (sb : Bool) (rn rd : Reg) (amount : BitVec 5) (ty : ShiftType) (rm : Reg) (s : State) : Answer :=
  s.ifCond c (s.dataProcessing .sub sb rn rd (.shImm amount ty rm))

/-- SUB with a register shifted by a register amount (R172). -/
def execSubShReg (c : Cond) (sb : Bool) (rn rd rs : Reg) (ty : ShiftType) (rm : Reg) (s : State) : Answer :=
  s.ifCond c (s.dataProcessing .sub sb rn rd (.shReg rs ty rm))

/-- RSB with a rotated 8-bit immediate (R173). -/
def execRsbImm (c : Cond) (sb : Bool) (rn rd : Reg) (rot : BitVec 4) (imm8 : BitVec 8) (s : State) : Answer :=
  s.ifCond c (s.dataProcessing .rsb sb rn rd (.imm rot imm8))

/-- RSB with a register shifted by an immediate amount (R173). -/
def execRsbShImm (c : Cond) (sb : Bool) (rn rd : Reg) (amount : BitVec 5) (ty : ShiftType) (rm : Reg) (s : State) : Answer :=
  s.ifCond c (s.dataProcessing .rsb sb rn rd (.shImm amount ty rm))

/-- RSB with a register shifted by a register amount (R173). -/
def execRsbShReg (c : Cond) (sb : Bool) (rn rd rs : Reg) (ty : ShiftType) (rm : Reg) (s : State) : Answer :=
  s.ifCond c (s.dataProcessing .rsb sb rn rd (.shReg rs ty rm))

/-- ADD with a rotated 8-bit immediate (R174). -/
def execAddImm (c : Cond) (sb : Bool) (rn rd : Reg) (rot : BitVec 4) (imm8 : BitVec 8) (s : State) : Answer :=
  s.ifCond c (s.dataProcessing .add sb rn rd (.imm rot imm8))

/-- ADD with a register shifted by an immediate amount (R174). -/
def execAddShImm (c : Cond) (sb : Bool) (rn rd : Reg) (amount : BitVec 5) (ty : ShiftType) (rm : Reg) (s : State) : Answer :=
  s.ifCond c (s.dataProcessing .add sb rn rd (.shImm amount ty rm))

/-- ADD with a register shifted by a register amount (R174). -/
def execAddShReg (c : Cond) (sb : Bool) (rn rd rs : Reg) (ty : ShiftType) (rm : Reg) (s : State) : Answer :=
  s.ifCond c (s.dataProcessing .add sb rn rd (.shReg rs ty rm))

/-- ADC with a rotated 8-bit immediate (R175). -/
def execAdcImm (c : Cond) (sb : Bool) (rn rd : Reg) (rot : BitVec 4) (imm8 : BitVec 8) (s : State) : Answer :=
  s.ifCond c (s.dataProcessing .adc sb rn rd (.imm rot imm8))

/-- ADC with a register shifted by an immediate amount (R175). -/
def execAdcShImm (c : Cond) (sb : Bool) (rn rd : Reg) (amount : BitVec 5) (ty : ShiftType) (rm : Reg) (s : State) : Answer :=
  s.ifCond c (s.dataProcessing .adc sb rn rd (.shImm amount ty rm))

/-- ADC with a register shifted by a register amount (R175). -/
def execAdcShReg (c : Cond) (sb : Bool) (rn rd rs : Reg) (ty : ShiftType) (rm : Reg) (s : State) : Answer :=
  s.ifCond c (s.dataProcessing .adc sb rn rd (.shReg rs ty rm))

/-- SBC with a rotated 8-bit immediate (R176). -/
def execSbcImm (c : Cond) (sb : Bool) (rn rd : Reg) (rot : BitVec 4) (imm8 : BitVec 8) (s : State) : Answer :=
  s.ifCond c (s.dataProcessing .sbc sb rn rd (.imm rot imm8))

/-- SBC with a register shifted by an immediate amount (R176). -/
def execSbcShImm (c : Cond) (sb : Bool) (rn rd : Reg) (amount : BitVec 5) (ty : ShiftType) (rm : Reg) (s : State) : Answer :=
  s.ifCond c (s.dataProcessing .sbc sb rn rd (.shImm amount ty rm))

/-- SBC with a register shifted by a register amount (R176). -/
def execSbcShReg (c : Cond) (sb : Bool) (rn rd rs : Reg) (ty : ShiftType) (rm : Reg) (s : State) : Answer :=
  s.ifCond c (s.dataProcessing .sbc sb rn rd (.shReg rs ty rm))

/-- RSC with a rotated 8-bit immediate (R177). -/
def execRscImm (c : Cond) (sb : Bool) (rn rd : Reg) (rot : BitVec 4) (imm8 : BitVec 8) (s : State) : Answer :=
  s.ifCond c (s.dataProcessing .rsc sb rn rd (.imm rot imm8))

/-- RSC with a register shifted by an immediate amount (R177). -/
def execRscShImm (c : Cond) (sb : Bool) (rn rd : Reg) (amount : BitVec 5) (ty : ShiftType) (rm : Reg) (s : State) : Answer :=
  s.ifCond c (s.dataProcessing .rsc sb rn rd (.shImm amount ty rm))

/-- RSC with a register shifted by a register amount (R177). -/
def execRscShReg (c : Cond) (sb : Bool) (rn rd rs : Reg) (ty : ShiftType) (rm : Reg) (s : State) : Answer :=
  s.ifCond c (s.dataProcessing .rsc sb rn rd (.shReg rs ty rm))

/-- TST with a rotated 8-bit immediate (R178). -/
def execTstImm (c : Cond) (rn rd : Reg) (rot : BitVec 4) (imm8 : BitVec 8) (s : State) : Answer :=
  s.ifCond c (s.dataProcessing .tst true rn rd (.imm rot imm8))

/-- TST with a register shifted by an immediate amount (R178). -/
def execTstShImm (c : Cond) (rn rd : Reg) (amount : BitVec 5) (ty : ShiftType) (rm : Reg) (s : State) : Answer :=
  s.ifCond c (s.dataProcessing .tst true rn rd (.shImm amount ty rm))

/-- TST with a register shifted by a register amount (R178). -/
def execTstShReg (c : Cond) (rn rd rs : Reg) (ty : ShiftType) (rm : Reg) (s : State) : Answer :=
  s.ifCond c (s.dataProcessing .tst true rn rd (.shReg rs ty rm))

/-- TEQ with a rotated 8-bit immediate (R179). -/
def execTeqImm (c : Cond) (rn rd : Reg) (rot : BitVec 4) (imm8 : BitVec 8) (s : State) : Answer :=
  s.ifCond c (s.dataProcessing .teq true rn rd (.imm rot imm8))

/-- TEQ with a register shifted by an immediate amount (R179). -/
def execTeqShImm (c : Cond) (rn rd : Reg) (amount : BitVec 5) (ty : ShiftType) (rm : Reg) (s : State) : Answer :=
  s.ifCond c (s.dataProcessing .teq true rn rd (.shImm amount ty rm))

/-- TEQ with a register shifted by a register amount (R179). -/
def execTeqShReg (c : Cond) (rn rd rs : Reg) (ty : ShiftType) (rm : Reg) (s : State) : Answer :=
  s.ifCond c (s.dataProcessing .teq true rn rd (.shReg rs ty rm))

/-- CMP with a rotated 8-bit immediate (R180). -/
def execCmpImm (c : Cond) (rn rd : Reg) (rot : BitVec 4) (imm8 : BitVec 8) (s : State) : Answer :=
  s.ifCond c (s.dataProcessing .cmp true rn rd (.imm rot imm8))

/-- CMP with a register shifted by an immediate amount (R180). -/
def execCmpShImm (c : Cond) (rn rd : Reg) (amount : BitVec 5) (ty : ShiftType) (rm : Reg) (s : State) : Answer :=
  s.ifCond c (s.dataProcessing .cmp true rn rd (.shImm amount ty rm))

/-- CMP with a register shifted by a register amount (R180). -/
def execCmpShReg (c : Cond) (rn rd rs : Reg) (ty : ShiftType) (rm : Reg) (s : State) : Answer :=
  s.ifCond c (s.dataProcessing .cmp true rn rd (.shReg rs ty rm))

/-- CMN with a rotated 8-bit immediate (R181). -/
def execCmnImm (c : Cond) (rn rd : Reg) (rot : BitVec 4) (imm8 : BitVec 8) (s : State) : Answer :=
  s.ifCond c (s.dataProcessing .cmn true rn rd (.imm rot imm8))

/-- CMN with a register shifted by an immediate amount (R181). -/
def execCmnShImm (c : Cond) (rn rd : Reg) (amount : BitVec 5) (ty : ShiftType) (rm : Reg) (s : State) : Answer :=
  s.ifCond c (s.dataProcessing .cmn true rn rd (.shImm amount ty rm))

/-- CMN with a register shifted by a register amount (R181). -/
def execCmnShReg (c : Cond) (rn rd rs : Reg) (ty : ShiftType) (rm : Reg) (s : State) : Answer :=
  s.ifCond c (s.dataProcessing .cmn true rn rd (.shReg rs ty rm))

/-- ORR with a rotated 8-bit immediate (R182). -/
def execOrrImm (c : Cond) (sb : Bool) (rn rd : Reg) (rot : BitVec 4) (imm8 : BitVec 8) (s : State) : Answer :=
  s.ifCond c (s.dataProcessing .orr sb rn rd (.imm rot imm8))

/-- ORR with a register shifted by an immediate amount (R182). -/
def execOrrShImm (c : Cond) (sb : Bool) (rn rd : Reg) (amount : BitVec 5) (ty : ShiftType) (rm : Reg) (s : State) : Answer :=
  s.ifCond c (s.dataProcessing .orr sb rn rd (.shImm amount ty rm))

/-- ORR with a register shifted by a register amount (R182). -/
def execOrrShReg (c : Cond) (sb : Bool) (rn rd rs : Reg) (ty : ShiftType) (rm : Reg) (s : State) : Answer :=
  s.ifCond c (s.dataProcessing .orr sb rn rd (.shReg rs ty rm))

/-- MOV with a rotated 8-bit immediate (R183). -/
def execMovImm (c : Cond) (sb : Bool) (rn rd : Reg) (rot : BitVec 4) (imm8 : BitVec 8) (s : State) : Answer :=
  s.ifCond c (s.dataProcessing .mov sb rn rd (.imm rot imm8))

/-- MOV with a register shifted by an immediate amount (R183). -/
def execMovShImm (c : Cond) (sb : Bool) (rn rd : Reg) (amount : BitVec 5) (ty : ShiftType) (rm : Reg) (s : State) : Answer :=
  s.ifCond c (s.dataProcessing .mov sb rn rd (.shImm amount ty rm))

/-- MOV with a register shifted by a register amount (R183). -/
def execMovShReg (c : Cond) (sb : Bool) (rn rd rs : Reg) (ty : ShiftType) (rm : Reg) (s : State) : Answer :=
  s.ifCond c (s.dataProcessing .mov sb rn rd (.shReg rs ty rm))

/-- BIC with a rotated 8-bit immediate (R184). -/
def execBicImm (c : Cond) (sb : Bool) (rn rd : Reg) (rot : BitVec 4) (imm8 : BitVec 8) (s : State) : Answer :=
  s.ifCond c (s.dataProcessing .bic sb rn rd (.imm rot imm8))

/-- BIC with a register shifted by an immediate amount (R184). -/
def execBicShImm (c : Cond) (sb : Bool) (rn rd : Reg) (amount : BitVec 5) (ty : ShiftType) (rm : Reg) (s : State) : Answer :=
  s.ifCond c (s.dataProcessing .bic sb rn rd (.shImm amount ty rm))

/-- BIC with a register shifted by a register amount (R184). -/
def execBicShReg (c : Cond) (sb : Bool) (rn rd rs : Reg) (ty : ShiftType) (rm : Reg) (s : State) : Answer :=
  s.ifCond c (s.dataProcessing .bic sb rn rd (.shReg rs ty rm))

/-- MVN with a rotated 8-bit immediate (R185). -/
def execMvnImm (c : Cond) (sb : Bool) (rn rd : Reg) (rot : BitVec 4) (imm8 : BitVec 8) (s : State) : Answer :=
  s.ifCond c (s.dataProcessing .mvn sb rn rd (.imm rot imm8))

/-- MVN with a register shifted by an immediate amount (R185). -/
def execMvnShImm (c : Cond) (sb : Bool) (rn rd : Reg) (amount : BitVec 5) (ty : ShiftType) (rm : Reg) (s : State) : Answer :=
  s.ifCond c (s.dataProcessing .mvn sb rn rd (.shImm amount ty rm))

/-- MVN with a register shifted by a register amount (R185). -/
def execMvnShReg (c : Cond) (sb : Bool) (rn rd rs : Reg) (ty : ShiftType) (rm : Reg) (s : State) : Answer :=
  s.ifCond c (s.dataProcessing .mvn sb rn rd (.shReg rs ty rm))

end Sys2Proof.Machine
end

