-- ==== Sys2Proof/Machine/ArmMultiply.lean ====
section
/-! DEFINITION. ARM multiply (spec/42_arm_multiply.md R200 to R210). -/

namespace Sys2Proof.Machine

/-- MUL and MLA with a restricted operand: a field in use is r15, or Rd = Rm (R202). -/
def mulForbidden (rd rs rm : Reg) : Bool := rd == 15 || rs == 15 || rm == 15 || rd == rm

/-- A long multiply with a restricted operand (R202). -/
def mulLongForbidden (rdHi rdLo rs rm : Reg) : Bool :=
  rdHi == 15 || rdLo == 15 || rs == 15 || rm == 15 || rdHi == rdLo || rdHi == rm || rdLo == rm

/-- The exact 64-bit product of two unsigned words (R209). -/
def unsignedProduct (a b : Word) : BitVec 64 := a.setWidth 64 * b.setWidth 64

/-- The exact 64-bit product of two two's-complement words (R209). -/
def signedProduct (a b : Word) : BitVec 64 := a.signExtend 64 * b.signExtend 64

/-- Write a 32-bit product and, with S, the flags (R201). -/
def State.multiply (s : State) (sb : Bool) (rd : Reg) (r : Word) : Answer :=
  .next ((s.setX rd r).setFlagsIf sb (mulFlags r s.cpsr.v))

/-- Write a 64-bit product to RdHi:RdLo and, with S, the flags (R200, R201). -/
def State.multiplyLong (s : State) (sb : Bool) (rdHi rdLo : Reg) (r : BitVec 64) : Answer :=
  .next (((s.setX rdLo (r.extractLsb' 0 32)).setX rdHi (r.extractLsb' 32 32)).setFlagsIf sb (mulLongFlags r s.cpsr.v))

/-- MUL; the Rn field is not read (R203). -/
def execMul (c : Cond) (sb : Bool) (rd _rn rs rm : Reg) (s : State) : Answer :=
  s.ifCond c (if mulForbidden rd rs rm then .refused .restrictedMultiply
    else s.multiply sb rd (s.x rm * s.x rs))

/-- MLA (R204). -/
def execMla (c : Cond) (sb : Bool) (rd rn rs rm : Reg) (s : State) : Answer :=
  s.ifCond c (if mulForbidden rd rs rm || rn == 15 then .refused .restrictedMultiply
    else s.multiply sb rd (s.x rm * s.x rs + s.x rn))

/-- UMULL (R205). -/
def execUmull (c : Cond) (sb : Bool) (rdHi rdLo rs rm : Reg) (s : State) : Answer :=
  s.ifCond c (if mulLongForbidden rdHi rdLo rs rm then .refused .restrictedMultiply
    else s.multiplyLong sb rdHi rdLo (unsignedProduct (s.x rm) (s.x rs)))

/-- UMLAL (R206). -/
def execUmlal (c : Cond) (sb : Bool) (rdHi rdLo rs rm : Reg) (s : State) : Answer :=
  s.ifCond c (if mulLongForbidden rdHi rdLo rs rm then .refused .restrictedMultiply
    else s.multiplyLong sb rdHi rdLo (unsignedProduct (s.x rm) (s.x rs) + (s.x rdHi ++ s.x rdLo)))

/-- SMULL (R207). -/
def execSmull (c : Cond) (sb : Bool) (rdHi rdLo rs rm : Reg) (s : State) : Answer :=
  s.ifCond c (if mulLongForbidden rdHi rdLo rs rm then .refused .restrictedMultiply
    else s.multiplyLong sb rdHi rdLo (signedProduct (s.x rm) (s.x rs)))

/-- SMLAL (R208). -/
def execSmlal (c : Cond) (sb : Bool) (rdHi rdLo rs rm : Reg) (s : State) : Answer :=
  s.ifCond c (if mulLongForbidden rdHi rdLo rs rm then .refused .restrictedMultiply
    else s.multiplyLong sb rdHi rdLo (signedProduct (s.x rm) (s.x rs) + (s.x rdHi ++ s.x rdLo)))

end Sys2Proof.Machine
end

