-- ==== Sys2Proof/Machine/ArmPsr.lean ====
section
/-! DEFINITION. ARM PSR transfer (spec/43_arm_psr_transfer.md R220 to R233). -/

namespace Sys2Proof.Machine

/-- What MRS reads: the CPSR, or the SPSR of the mode, which in USER and SYSTEM reads as the CPSR (R221, R222). -/
def State.readPsr (s : State) (spsr : Bool) : Spsr :=
  if spsr then (s.spsrs.get? s.mode).getD s.cpsr.toSpsr else s.cpsr.toSpsr

/-- The bytes of a PSR the field mask selects: f, s, x, c are its bits 3 to 0 (R102, R223). -/
def psrByteMask (mask : BitVec 4) : Word :=
  (if mask.getLsbD 3 then 0xFF000000#32 else 0) ||| (if mask.getLsbD 2 then 0x00FF0000#32 else 0) |||
    (if mask.getLsbD 1 then 0x0000FF00#32 else 0) ||| (if mask.getLsbD 0 then 0x000000FF#32 else 0)

/-- `effective` of R223: in USER mode only the flag byte of the CPSR is writable, and bits 27:8 ignore writes. -/
def State.psrEffective (s : State) (spsr : Bool) (mask : BitVec 4) : Word :=
  (if s.mode = .user ∧ spsr = false then psrByteMask mask &&& 0xFF000000#32 else psrByteMask mask) &&& 0xF00000FF#32

/-- `(old AND NOT effective) OR (v AND effective)` (R226). -/
def psrMerge (old : Spsr) (effective v : Word) : Spsr :=
  Psr.ofWord ((old.toWord &&& ~~~effective) ||| (v &&& effective))

/-- MSR (R224, R225): the SPSR of the mode, refused in USER and SYSTEM, or the CPSR, refused when M would be no mode. -/
def State.writePsr (s : State) (spsr : Bool) (mask : BitVec 4) (v : Word) : Answer :=
  let effective := s.psrEffective spsr mask
  if spsr then
    match s.spsrs.get? s.mode with
    | none => .refused .noSpsrToWrite
    | some old => .next { s with spsrs := s.spsrs.put s.mode (psrMerge old effective v) }
  else
    match (psrMerge s.cpsr.toSpsr effective v).toCpsr? with
    | none => .refused .unrecognisedMode
    | some new => .next { s with cpsr := new }

/-- MRS (R222). -/
def execMrs (c : Cond) (ps : Bool) (rd : Reg) (s : State) : Answer :=
  s.ifCond c (if rd = 15 then .refused .forbiddenR15 else .next (s.setX rd (s.readPsr ps).toWord))

/-- MSR with a register operand (R224). -/
def execMsrReg (c : Cond) (ps : Bool) (mask : BitVec 4) (rm : Reg) (s : State) : Answer :=
  s.ifCond c (if rm = 15 then .refused .forbiddenR15 else s.writePsr ps mask (s.x rm))

/-- MSR with an immediate operand (R225). -/
def execMsrImm (c : Cond) (ps : Bool) (mask rot : BitVec 4) (imm8 : BitVec 8) (s : State) : Answer :=
  s.ifCond c (s.writePsr ps mask (rotatedImm rot imm8))

end Sys2Proof.Machine
end

