-- ==== Sys2Proof/Machine/ArmTransfer.lean ====
section
/-! DEFINITION. ARM single, halfword and swap transfers (spec/44_arm_load_store.md R240 to R265). -/

namespace Sys2Proof.Machine

/-- Write `target` back to the base (R241, R243). -/
def State.writeBack (s : State) (ix : Indexing) (rn : Reg) (target : Word) : State :=
  if ix.writesBack then s.setX rn target else s

/-- r15 where it is forbidden: as the offset register, or as the base of a form that writes back (R242, R243, R259). -/
def transferForbidden (ix : Indexing) (rn : Reg) (o : Offset) : Bool :=
  o.usesR15 || (rn == 15 && ix.writesBack)

/-- The effects of a load, in order: read, write back, then the destination, so the loaded value wins over writeback
(R243, R244). -/
def State.doLoad (s : State) (k : LoadKind) (ix : Indexing) (rn rd : Reg) (o : Offset) : State :=
  let r := s.load k (s.indexAddr ix rn o)
  (r.2.writeBack ix rn (s.indexTarget ix rn o)).writeReg rd r.1

/-- The effects of a store, in order: the value as it was before writeback, the write, then writeback (R243, R245). -/
def State.doStore (s : State) (w : Width) (ix : Indexing) (rn rd : Reg) (o : Offset) : State :=
  (s.busWrite w (s.indexAddr ix rn o) (s.storeValue rd)).writeBack ix rn (s.indexTarget ix rn o)

/-- LDR, LDRB and their T variants (R246, R248, R250). -/
def State.singleLoad (s : State) (k : LoadKind) (ix : Indexing) (rn rd : Reg) (o : Offset) : Answer :=
  if transferForbidden ix rn o then .refused .forbiddenR15 else .next (s.doLoad k ix rn rd o)

/-- STR, STRB and their T variants (R247, R249, R250). -/
def State.singleStore (s : State) (w : Width) (ix : Indexing) (rn rd : Reg) (o : Offset) : Answer :=
  if transferForbidden ix rn o then .refused .forbiddenR15 else .next (s.doStore w ix rn rd o)

/-- LDRH, LDRSB and LDRSH (R256 to R259): Rd = r15 and P = 0 with W = 1 are refused. -/
def State.halfLoad (s : State) (k : LoadKind) (ix : Indexing) (rn rd : Reg) (o : Offset) : Answer :=
  if !ix.pre && ix.w then .refused .halfwordPostIndexedW
  else if transferForbidden ix rn o || rd == 15 then .refused .forbiddenR15
  else .next (s.doLoad k ix rn rd o)

/-- STRH (R255, R259): P = 0 with W = 1 is refused. -/
def State.halfStore (s : State) (ix : Indexing) (rn rd : Reg) (o : Offset) : Answer :=
  if !ix.pre && ix.w then .refused .halfwordPostIndexedW
  else if transferForbidden ix rn o then .refused .forbiddenR15
  else .next (s.doStore .half ix rn rd o)

/-- SWP and SWPB (R261 to R263): one read, one write, then the destination. -/
def State.swap (s : State) (w : Width) (rn rd rm : Reg) : Answer :=
  if rn == 15 || rd == 15 || rm == 15 then .refused .forbiddenR15
  else
    let r := s.load (if w = .byte then .byte else .word) (s.x rn)
    .next ((r.2.busWrite w (s.x rn) (s.x rm)).setX rd r.1)

/-- LDR, pre-indexed, an immediate offset (R246). -/
def execLdrImmPre (c : Cond) (up w : Bool) (rn rd : Reg) (imm12 : BitVec 12) (s : State) : Answer :=
  s.ifCond c (s.singleLoad .word ⟨true, up, w⟩ rn rd (.imm12 imm12))

/-- LDR, post-indexed, an immediate offset (R246). -/
def execLdrImmPost (c : Cond) (up : Bool) (rn rd : Reg) (imm12 : BitVec 12) (s : State) : Answer :=
  s.ifCond c (s.singleLoad .word ⟨false, up, false⟩ rn rd (.imm12 imm12))

/-- LDRT, an immediate offset (R251). -/
def execLdrtImm (c : Cond) (up : Bool) (rn rd : Reg) (imm12 : BitVec 12) (s : State) : Answer :=
  s.ifCond c (s.singleLoad .word ⟨false, up, true⟩ rn rd (.imm12 imm12))

/-- LDR, pre-indexed, a shifted register offset (R246). -/
def execLdrRegPre (c : Cond) (up w : Bool) (rn rd : Reg) (amount : BitVec 5) (ty : ShiftType) (rm : Reg) (s : State) : Answer :=
  s.ifCond c (s.singleLoad .word ⟨true, up, w⟩ rn rd (.shifted amount ty rm))

/-- LDR, post-indexed, a shifted register offset (R246). -/
def execLdrRegPost (c : Cond) (up : Bool) (rn rd : Reg) (amount : BitVec 5) (ty : ShiftType) (rm : Reg) (s : State) : Answer :=
  s.ifCond c (s.singleLoad .word ⟨false, up, false⟩ rn rd (.shifted amount ty rm))

/-- LDRT, a shifted register offset (R251). -/
def execLdrtReg (c : Cond) (up : Bool) (rn rd : Reg) (amount : BitVec 5) (ty : ShiftType) (rm : Reg) (s : State) : Answer :=
  s.ifCond c (s.singleLoad .word ⟨false, up, true⟩ rn rd (.shifted amount ty rm))

/-- STR, pre-indexed, an immediate offset (R247). -/
def execStrImmPre (c : Cond) (up w : Bool) (rn rd : Reg) (imm12 : BitVec 12) (s : State) : Answer :=
  s.ifCond c (s.singleStore .word ⟨true, up, w⟩ rn rd (.imm12 imm12))

/-- STR, post-indexed, an immediate offset (R247). -/
def execStrImmPost (c : Cond) (up : Bool) (rn rd : Reg) (imm12 : BitVec 12) (s : State) : Answer :=
  s.ifCond c (s.singleStore .word ⟨false, up, false⟩ rn rd (.imm12 imm12))

/-- STRT, an immediate offset (R253). -/
def execStrtImm (c : Cond) (up : Bool) (rn rd : Reg) (imm12 : BitVec 12) (s : State) : Answer :=
  s.ifCond c (s.singleStore .word ⟨false, up, true⟩ rn rd (.imm12 imm12))

/-- STR, pre-indexed, a shifted register offset (R247). -/
def execStrRegPre (c : Cond) (up w : Bool) (rn rd : Reg) (amount : BitVec 5) (ty : ShiftType) (rm : Reg) (s : State) : Answer :=
  s.ifCond c (s.singleStore .word ⟨true, up, w⟩ rn rd (.shifted amount ty rm))

/-- STR, post-indexed, a shifted register offset (R247). -/
def execStrRegPost (c : Cond) (up : Bool) (rn rd : Reg) (amount : BitVec 5) (ty : ShiftType) (rm : Reg) (s : State) : Answer :=
  s.ifCond c (s.singleStore .word ⟨false, up, false⟩ rn rd (.shifted amount ty rm))

/-- STRT, a shifted register offset (R253). -/
def execStrtReg (c : Cond) (up : Bool) (rn rd : Reg) (amount : BitVec 5) (ty : ShiftType) (rm : Reg) (s : State) : Answer :=
  s.ifCond c (s.singleStore .word ⟨false, up, true⟩ rn rd (.shifted amount ty rm))

/-- LDRB, pre-indexed, an immediate offset (R248). -/
def execLdrbImmPre (c : Cond) (up w : Bool) (rn rd : Reg) (imm12 : BitVec 12) (s : State) : Answer :=
  s.ifCond c (s.singleLoad .byte ⟨true, up, w⟩ rn rd (.imm12 imm12))

/-- LDRB, post-indexed, an immediate offset (R248). -/
def execLdrbImmPost (c : Cond) (up : Bool) (rn rd : Reg) (imm12 : BitVec 12) (s : State) : Answer :=
  s.ifCond c (s.singleLoad .byte ⟨false, up, false⟩ rn rd (.imm12 imm12))

/-- LDRBT, an immediate offset (R252). -/
def execLdrbtImm (c : Cond) (up : Bool) (rn rd : Reg) (imm12 : BitVec 12) (s : State) : Answer :=
  s.ifCond c (s.singleLoad .byte ⟨false, up, true⟩ rn rd (.imm12 imm12))

/-- LDRB, pre-indexed, a shifted register offset (R248). -/
def execLdrbRegPre (c : Cond) (up w : Bool) (rn rd : Reg) (amount : BitVec 5) (ty : ShiftType) (rm : Reg) (s : State) : Answer :=
  s.ifCond c (s.singleLoad .byte ⟨true, up, w⟩ rn rd (.shifted amount ty rm))

/-- LDRB, post-indexed, a shifted register offset (R248). -/
def execLdrbRegPost (c : Cond) (up : Bool) (rn rd : Reg) (amount : BitVec 5) (ty : ShiftType) (rm : Reg) (s : State) : Answer :=
  s.ifCond c (s.singleLoad .byte ⟨false, up, false⟩ rn rd (.shifted amount ty rm))

/-- LDRBT, a shifted register offset (R252). -/
def execLdrbtReg (c : Cond) (up : Bool) (rn rd : Reg) (amount : BitVec 5) (ty : ShiftType) (rm : Reg) (s : State) : Answer :=
  s.ifCond c (s.singleLoad .byte ⟨false, up, true⟩ rn rd (.shifted amount ty rm))

/-- STRB, pre-indexed, an immediate offset (R249). -/
def execStrbImmPre (c : Cond) (up w : Bool) (rn rd : Reg) (imm12 : BitVec 12) (s : State) : Answer :=
  s.ifCond c (s.singleStore .byte ⟨true, up, w⟩ rn rd (.imm12 imm12))

/-- STRB, post-indexed, an immediate offset (R249). -/
def execStrbImmPost (c : Cond) (up : Bool) (rn rd : Reg) (imm12 : BitVec 12) (s : State) : Answer :=
  s.ifCond c (s.singleStore .byte ⟨false, up, false⟩ rn rd (.imm12 imm12))

/-- STRBT, an immediate offset (R254). -/
def execStrbtImm (c : Cond) (up : Bool) (rn rd : Reg) (imm12 : BitVec 12) (s : State) : Answer :=
  s.ifCond c (s.singleStore .byte ⟨false, up, true⟩ rn rd (.imm12 imm12))

/-- STRB, pre-indexed, a shifted register offset (R249). -/
def execStrbRegPre (c : Cond) (up w : Bool) (rn rd : Reg) (amount : BitVec 5) (ty : ShiftType) (rm : Reg) (s : State) : Answer :=
  s.ifCond c (s.singleStore .byte ⟨true, up, w⟩ rn rd (.shifted amount ty rm))

/-- STRB, post-indexed, a shifted register offset (R249). -/
def execStrbRegPost (c : Cond) (up : Bool) (rn rd : Reg) (amount : BitVec 5) (ty : ShiftType) (rm : Reg) (s : State) : Answer :=
  s.ifCond c (s.singleStore .byte ⟨false, up, false⟩ rn rd (.shifted amount ty rm))

/-- STRBT, a shifted register offset (R254). -/
def execStrbtReg (c : Cond) (up : Bool) (rn rd : Reg) (amount : BitVec 5) (ty : ShiftType) (rm : Reg) (s : State) : Answer :=
  s.ifCond c (s.singleStore .byte ⟨false, up, true⟩ rn rd (.shifted amount ty rm))

/-- STRH, register offset (R255). -/
def execStrhReg (c : Cond) (p up w : Bool) (rn rd rm : Reg) (s : State) : Answer :=
  s.ifCond c (s.halfStore ⟨p, up, w⟩ rn rd (.plain rm))

/-- STRH, immediate offset (R255). -/
def execStrhImm (c : Cond) (p up w : Bool) (rn rd : Reg) (imm8 : BitVec 8) (s : State) : Answer :=
  s.ifCond c (s.halfStore ⟨p, up, w⟩ rn rd (.imm8 imm8))

/-- LDRH, register offset (R256). -/
def execLdrhReg (c : Cond) (p up w : Bool) (rn rd rm : Reg) (s : State) : Answer :=
  s.ifCond c (s.halfLoad .half ⟨p, up, w⟩ rn rd (.plain rm))

/-- LDRH, immediate offset (R256). -/
def execLdrhImm (c : Cond) (p up w : Bool) (rn rd : Reg) (imm8 : BitVec 8) (s : State) : Answer :=
  s.ifCond c (s.halfLoad .half ⟨p, up, w⟩ rn rd (.imm8 imm8))

/-- LDRSB, register offset (R257). -/
def execLdrsbReg (c : Cond) (p up w : Bool) (rn rd rm : Reg) (s : State) : Answer :=
  s.ifCond c (s.halfLoad .sbyte ⟨p, up, w⟩ rn rd (.plain rm))

/-- LDRSB, immediate offset (R257). -/
def execLdrsbImm (c : Cond) (p up w : Bool) (rn rd : Reg) (imm8 : BitVec 8) (s : State) : Answer :=
  s.ifCond c (s.halfLoad .sbyte ⟨p, up, w⟩ rn rd (.imm8 imm8))

/-- LDRSH, register offset (R258). -/
def execLdrshReg (c : Cond) (p up w : Bool) (rn rd rm : Reg) (s : State) : Answer :=
  s.ifCond c (s.halfLoad .shalf ⟨p, up, w⟩ rn rd (.plain rm))

/-- LDRSH, immediate offset (R258). -/
def execLdrshImm (c : Cond) (p up w : Bool) (rn rd : Reg) (imm8 : BitVec 8) (s : State) : Answer :=
  s.ifCond c (s.halfLoad .shalf ⟨p, up, w⟩ rn rd (.imm8 imm8))

/-- SWP (R262). -/
def execSwp (c : Cond) (rn rd rm : Reg) (s : State) : Answer :=
  s.ifCond c (s.swap .word rn rd rm)

/-- SWPB (R263). -/
def execSwpb (c : Cond) (rn rd rm : Reg) (s : State) : Answer :=
  s.ifCond c (s.swap .byte rn rd rm)

end Sys2Proof.Machine
end

