-- ==== Sys2Proof/Machine/ThumbAlu.lean ====
section
/-! DEFINITION. THUMB arithmetic, logic and move forms 1 to 5, 12 and 13 (spec/47_thumb_alu.md R320 to R364). -/

namespace Sys2Proof.Machine

/-- An unsigned immediate shifted left (R123). -/
def scaled {n : Nat} (imm : BitVec n) (k : Nat) : Word := imm.setWidth 32 <<< k

/-- A register read of form 5: r15 reads `(ia + 4) AND NOT 2`, or `ia + 4` with `THUMB_HIREG_PC_ALIGN = false` (R352). -/
def State.hiReg (s : State) (i : Reg) : Word :=
  if i = 15 ∧ s.cfg.thumbHiregPcAlign = false then s.now.ia + 4 else s.regT i

/-- Write a shifted value; N and Z from it, C from the shifter, V unchanged (R321). -/
def State.thumbShift (s : State) (rd : LowReg) (r : Word × Bool) : Answer :=
  .next ((s.setX (lowReg rd) r.1).setFlags (logicFlags r.1 r.2 s.cpsr.v))

/-- Write a logical result; N and Z from it, C and V unchanged (R321). -/
def State.thumbLogic (s : State) (rd : LowReg) (r : Word) : Answer :=
  .next ((s.setX (lowReg rd) r).setFlags (logicFlags r s.cpsr.c s.cpsr.v))

/-- Flags of a logical result that is not written (R342). -/
def State.thumbTest (s : State) (r : Word) : Answer := .next (s.setFlags (logicFlags r s.cpsr.c s.cpsr.v))

/-- Write an arithmetic result and all four flags (R321). -/
def State.thumbArith (s : State) (rd : LowReg) (r : AluResult) : Answer :=
  .next ((s.setX (lowReg rd) r.value).setFlags (arithFlags r))

/-- Flags of an arithmetic result that is not written (R331, R344, R345, R354). -/
def State.thumbCompare (s : State) (r : AluResult) : Answer := .next (s.setFlags (arithFlags r))

/-- Write a product; N and Z from it, C set to 0, V unchanged (R321, R347). -/
def State.thumbMultiply (s : State) (rd : LowReg) (r : Word) : Answer :=
  .next ((s.setX (lowReg rd) r).setFlags (mulFlags r s.cpsr.v))

/-- LSL Rd, Rs, #imm5 (R323). -/
def execTLslImm (amount : BitVec 5) (rs rd : LowReg) (s : State) : Answer :=
  s.thumbShift rd (shiftImm .lsl (s.x (lowReg rs)) amount s.cpsr.c)

/-- LSR Rd, Rs, #imm5 (R324). -/
def execTLsrImm (amount : BitVec 5) (rs rd : LowReg) (s : State) : Answer :=
  s.thumbShift rd (shiftImm .lsr (s.x (lowReg rs)) amount s.cpsr.c)

/-- ASR Rd, Rs, #imm5 (R325). -/
def execTAsrImm (amount : BitVec 5) (rs rd : LowReg) (s : State) : Answer :=
  s.thumbShift rd (shiftImm .asr (s.x (lowReg rs)) amount s.cpsr.c)

/-- ADD Rd, Rs, Rn (R326). -/
def execTAddReg (rn rs rd : LowReg) (s : State) : Answer :=
  s.thumbArith rd (aluAdd (s.x (lowReg rs)) (s.x (lowReg rn)))

/-- SUB Rd, Rs, Rn (R327). -/
def execTSubReg (rn rs rd : LowReg) (s : State) : Answer :=
  s.thumbArith rd (aluSub (s.x (lowReg rs)) (s.x (lowReg rn)))

/-- ADD Rd, Rs, #imm3 (R328). -/
def execTAddImm3 (imm3 : BitVec 3) (rs rd : LowReg) (s : State) : Answer :=
  s.thumbArith rd (aluAdd (s.x (lowReg rs)) (imm3.setWidth 32))

/-- SUB Rd, Rs, #imm3 (R329). -/
def execTSubImm3 (imm3 : BitVec 3) (rs rd : LowReg) (s : State) : Answer :=
  s.thumbArith rd (aluSub (s.x (lowReg rs)) (imm3.setWidth 32))

/-- MOV Rd, #imm8 (R330). -/
def execTMovImm (rd : LowReg) (imm8 : BitVec 8) (s : State) : Answer :=
  s.thumbLogic rd (imm8.setWidth 32)

/-- CMP Rd, #imm8 (R331). -/
def execTCmpImm (rd : LowReg) (imm8 : BitVec 8) (s : State) : Answer :=
  s.thumbCompare (aluSub (s.x (lowReg rd)) (imm8.setWidth 32))

/-- ADD Rd, #imm8 (R332). -/
def execTAddImm (rd : LowReg) (imm8 : BitVec 8) (s : State) : Answer :=
  s.thumbArith rd (aluAdd (s.x (lowReg rd)) (imm8.setWidth 32))

/-- SUB Rd, #imm8 (R333). -/
def execTSubImm (rd : LowReg) (imm8 : BitVec 8) (s : State) : Answer :=
  s.thumbArith rd (aluSub (s.x (lowReg rd)) (imm8.setWidth 32))

/-- AND Rd, Rs (form 4) (R338). -/
def execTAnd (rs rd : LowReg) (s : State) : Answer :=
  s.thumbLogic rd (s.x (lowReg rd) &&& s.x (lowReg rs))

/-- EOR Rd, Rs (form 4) (R339). -/
def execTEor (rs rd : LowReg) (s : State) : Answer :=
  s.thumbLogic rd (s.x (lowReg rd) ^^^ s.x (lowReg rs))

/-- LSL Rd, Rs (form 4) (R334). -/
def execTLslReg (rs rd : LowReg) (s : State) : Answer :=
  s.thumbShift rd (shiftReg .lsl (s.x (lowReg rd)) (s.x (lowReg rs)) s.cpsr.c)

/-- LSR Rd, Rs (form 4) (R335). -/
def execTLsrReg (rs rd : LowReg) (s : State) : Answer :=
  s.thumbShift rd (shiftReg .lsr (s.x (lowReg rd)) (s.x (lowReg rs)) s.cpsr.c)

/-- ASR Rd, Rs (form 4) (R336). -/
def execTAsrReg (rs rd : LowReg) (s : State) : Answer :=
  s.thumbShift rd (shiftReg .asr (s.x (lowReg rd)) (s.x (lowReg rs)) s.cpsr.c)

/-- ADC Rd, Rs (form 4) (R340). -/
def execTAdc (rs rd : LowReg) (s : State) : Answer :=
  s.thumbArith rd (aluAdc (s.x (lowReg rd)) (s.x (lowReg rs)) s.cpsr.c)

/-- SBC Rd, Rs (form 4) (R341). -/
def execTSbc (rs rd : LowReg) (s : State) : Answer :=
  s.thumbArith rd (aluSbc (s.x (lowReg rd)) (s.x (lowReg rs)) s.cpsr.c)

/-- ROR Rd, Rs (form 4) (R337). -/
def execTRorReg (rs rd : LowReg) (s : State) : Answer :=
  s.thumbShift rd (shiftReg .ror (s.x (lowReg rd)) (s.x (lowReg rs)) s.cpsr.c)

/-- TST Rd, Rs (form 4) (R342). -/
def execTTst (rs rd : LowReg) (s : State) : Answer :=
  s.thumbTest (s.x (lowReg rd) &&& s.x (lowReg rs))

/-- NEG Rd, Rs (form 4) (R343). -/
def execTNeg (rs rd : LowReg) (s : State) : Answer :=
  s.thumbArith rd (aluSub 0 (s.x (lowReg rs)))

/-- CMP Rd, Rs (form 4) (R344). -/
def execTCmpReg (rs rd : LowReg) (s : State) : Answer :=
  s.thumbCompare (aluSub (s.x (lowReg rd)) (s.x (lowReg rs)))

/-- CMN Rd, Rs (form 4) (R345). -/
def execTCmn (rs rd : LowReg) (s : State) : Answer :=
  s.thumbCompare (aluAdd (s.x (lowReg rd)) (s.x (lowReg rs)))

/-- ORR Rd, Rs (form 4) (R346). -/
def execTOrr (rs rd : LowReg) (s : State) : Answer :=
  s.thumbLogic rd (s.x (lowReg rd) ||| s.x (lowReg rs))

/-- MUL Rd, Rs (form 4) (R347). -/
def execTMul (rs rd : LowReg) (s : State) : Answer :=
  s.thumbMultiply rd (s.x (lowReg rd) * s.x (lowReg rs))

/-- BIC Rd, Rs (form 4) (R348). -/
def execTBic (rs rd : LowReg) (s : State) : Answer :=
  s.thumbLogic rd (s.x (lowReg rd) &&& ~~~(s.x (lowReg rs)))

/-- MVN Rd, Rs (form 4) (R349). -/
def execTMvn (rs rd : LowReg) (s : State) : Answer :=
  s.thumbLogic rd (~~~(s.x (lowReg rs)))

/-- ADD Rd, Rs (hi registers) (R353). -/
def execTAddHi (rd rs : Reg) (s : State) : Answer :=
  .next (s.writeReg rd (s.hiReg rd + s.hiReg rs))

/-- CMP Rd, Rs (hi registers) (R354). -/
def execTCmpHi (rd rs : Reg) (s : State) : Answer :=
  s.thumbCompare (aluSub (s.hiReg rd) (s.hiReg rs))

/-- MOV Rd, Rs (hi registers) (R355). -/
def execTMovHi (rd rs : Reg) (s : State) : Answer :=
  .next (s.writeReg rd (s.hiReg rs))

/-- BX Rs; bits 2:0 ignored (R356). -/
def execTBx (rs : Reg) (s : State) : Answer :=
  .next (s.exchangeTo (s.hiReg rs))

/-- ADD Rd, PC, #imm (R360). -/
def execTAddPc (rd : LowReg) (word8 : BitVec 8) (s : State) : Answer :=
  .next (s.setX (lowReg rd) (s.regT 15 + scaled word8 2))

/-- ADD Rd, SP, #imm (R361). -/
def execTAddSp (rd : LowReg) (word8 : BitVec 8) (s : State) : Answer :=
  .next (s.setX (lowReg rd) (s.x 13 + scaled word8 2))

/-- ADD SP, #imm (R363). -/
def execTSpAdd (sword7 : BitVec 7) (s : State) : Answer :=
  .next (s.setX 13 (s.x 13 + scaled sword7 2))

/-- ADD SP, #-imm (R364). -/
def execTSpSub (sword7 : BitVec 7) (s : State) : Answer :=
  .next (s.setX 13 (s.x 13 - scaled sword7 2))

end Sys2Proof.Machine
end

