-- ==== Sys2Proof/Machine/ThumbBranch.lean ====
section
/-! DEFINITION. THUMB branches and SWI, forms 16 to 19 (spec/48_thumb_mem_branch.md R410 to R421). -/

namespace Sys2Proof.Machine

/-- A conditional branch, from `ia + 4`; the next instruction is `ia + 2` when the condition fails (R410, R412). -/
def State.thumbCondBranch (s : State) (c : Cond) (soffset8 : BitVec 8) : Answer :=
  s.ifCond c (.next (s.branchTo (s.now.ia + 4 + (soffset8.signExtend 32 <<< 1))))

/-- BEQ label (R412). -/
def execTBeq (soffset8 : BitVec 8) (s : State) : Answer :=
  s.thumbCondBranch .eq soffset8

/-- BNE label (R412). -/
def execTBne (soffset8 : BitVec 8) (s : State) : Answer :=
  s.thumbCondBranch .ne soffset8

/-- BCS label (R412). -/
def execTBcs (soffset8 : BitVec 8) (s : State) : Answer :=
  s.thumbCondBranch .cs soffset8

/-- BCC label (R412). -/
def execTBcc (soffset8 : BitVec 8) (s : State) : Answer :=
  s.thumbCondBranch .cc soffset8

/-- BMI label (R412). -/
def execTBmi (soffset8 : BitVec 8) (s : State) : Answer :=
  s.thumbCondBranch .mi soffset8

/-- BPL label (R412). -/
def execTBpl (soffset8 : BitVec 8) (s : State) : Answer :=
  s.thumbCondBranch .pl soffset8

/-- BVS label (R412). -/
def execTBvs (soffset8 : BitVec 8) (s : State) : Answer :=
  s.thumbCondBranch .vs soffset8

/-- BVC label (R412). -/
def execTBvc (soffset8 : BitVec 8) (s : State) : Answer :=
  s.thumbCondBranch .vc soffset8

/-- BHI label (R412). -/
def execTBhi (soffset8 : BitVec 8) (s : State) : Answer :=
  s.thumbCondBranch .hi soffset8

/-- BLS label (R412). -/
def execTBls (soffset8 : BitVec 8) (s : State) : Answer :=
  s.thumbCondBranch .ls soffset8

/-- BGE label (R412). -/
def execTBge (soffset8 : BitVec 8) (s : State) : Answer :=
  s.thumbCondBranch .ge soffset8

/-- BLT label (R412). -/
def execTBlt (soffset8 : BitVec 8) (s : State) : Answer :=
  s.thumbCondBranch .lt soffset8

/-- BGT label (R412). -/
def execTBgt (soffset8 : BitVec 8) (s : State) : Answer :=
  s.thumbCondBranch .gt soffset8

/-- BLE label (R412). -/
def execTBle (soffset8 : BitVec 8) (s : State) : Answer :=
  s.thumbCondBranch .le soffset8

/-- SWI; the core ignores the value (R415). -/
def execTSwi (_value8 : BitVec 8) (s : State) : Answer :=
  .next s.takeSwi

/-- B label (R417). -/
def execTB (offset11 : BitVec 11) (s : State) : Answer :=
  .next (s.branchTo (s.now.ia + 4 + (offset11.signExtend 32 <<< 1)))

/-- BL, high half (R419). -/
def execTBlHigh (offset11 : BitVec 11) (s : State) : Answer :=
  .next (s.setX 14 (s.now.ia + 4 + (offset11.signExtend 32 <<< 12)))

/-- BL, low half (R420). -/
def execTBlLow (offset11 : BitVec 11) (s : State) : Answer :=
  .next ((s.setX 14 ((s.now.ia + 2) ||| 1#32)).branchTo (s.x 14 + scaled offset11 1))

/-- BLX suffix, unallocated when `HAS_BLX` is false (R421). -/
def execTBlxLow (offset11 : BitVec 11) (s : State) : Answer :=
  if s.cfg.hasBlx then
    .next ({ s.setX 14 ((s.now.ia + 2) ||| 1#32) with cpsr := { s.cpsr with t := false } }.branchTo
      (s.x 14 + scaled offset11 1))
  else s.undefinedRoute

end Sys2Proof.Machine
end

