-- ==== Sys2Proof/Machine/ThumbTransfer.lean ====
section
/-! DEFINITION. THUMB loads, stores and block transfers, forms 6 to 11, 14 and 15 (spec/48_thumb_mem_branch.md R370 to
R402). -/

namespace Sys2Proof.Machine

/-- A load of forms 6 to 11: one bus read, one low register, no writeback, no flag (R370). -/
def State.thumbLoad (s : State) (k : LoadKind) (rd : LowReg) (a : Word) : Answer :=
  let r := s.load k a
  .next (r.2.setX (lowReg rd) r.1)

/-- A store of forms 7 to 11: one bus write (R370). -/
def State.thumbStore (s : State) (w : Width) (rd : LowReg) (a : Word) : Answer :=
  .next (s.busWrite w a (s.x (lowReg rd)))

/-- The registers of a PUSH: the low registers listed, and r14 with R = 1 (R395). -/
def pushList (r : Bool) (rlist : BitVec 8) : BitVec 16 :=
  rlist.setWidth 16 ||| (if r then 0x4000#16 else 0)

/-- The registers of a POP: the low registers listed, and r15 with R = 1 (R395). -/
def popList (r : Bool) (rlist : BitVec 8) : BitVec 16 :=
  rlist.setWidth 16 ||| (if r then 0x8000#16 else 0)

/-- LDR Rd, [PC, #imm] (R371). -/
def execTLdrPc (rd : LowReg) (word8 : BitVec 8) (s : State) : Answer :=
  s.thumbLoad .word rd (s.regT 15 + scaled word8 2)

/-- STR Rd, [Rb, Ro] (R373). -/
def execTStrReg (ro rb rd : LowReg) (s : State) : Answer :=
  s.thumbStore .word rd (s.x (lowReg rb) + s.x (lowReg ro))

/-- STRB Rd, [Rb, Ro] (R374). -/
def execTStrbReg (ro rb rd : LowReg) (s : State) : Answer :=
  s.thumbStore .byte rd (s.x (lowReg rb) + s.x (lowReg ro))

/-- LDR Rd, [Rb, Ro] (R375). -/
def execTLdrReg (ro rb rd : LowReg) (s : State) : Answer :=
  s.thumbLoad .word rd (s.x (lowReg rb) + s.x (lowReg ro))

/-- LDRB Rd, [Rb, Ro] (R376). -/
def execTLdrbReg (ro rb rd : LowReg) (s : State) : Answer :=
  s.thumbLoad .byte rd (s.x (lowReg rb) + s.x (lowReg ro))

/-- STRH Rd, [Rb, Ro] (R378). -/
def execTStrhReg (ro rb rd : LowReg) (s : State) : Answer :=
  s.thumbStore .half rd (s.x (lowReg rb) + s.x (lowReg ro))

/-- LDRH Rd, [Rb, Ro] (R379). -/
def execTLdrhReg (ro rb rd : LowReg) (s : State) : Answer :=
  s.thumbLoad .half rd (s.x (lowReg rb) + s.x (lowReg ro))

/-- LDSB Rd, [Rb, Ro] (R380). -/
def execTLdsb (ro rb rd : LowReg) (s : State) : Answer :=
  s.thumbLoad .sbyte rd (s.x (lowReg rb) + s.x (lowReg ro))

/-- LDSH Rd, [Rb, Ro] (R381). -/
def execTLdsh (ro rb rd : LowReg) (s : State) : Answer :=
  s.thumbLoad .shalf rd (s.x (lowReg rb) + s.x (lowReg ro))

/-- STR Rd, [Rb, #imm] (R383). -/
def execTStrImm (offset5 : BitVec 5) (rb rd : LowReg) (s : State) : Answer :=
  s.thumbStore .word rd (s.x (lowReg rb) + scaled offset5 2)

/-- LDR Rd, [Rb, #imm] (R384). -/
def execTLdrImm (offset5 : BitVec 5) (rb rd : LowReg) (s : State) : Answer :=
  s.thumbLoad .word rd (s.x (lowReg rb) + scaled offset5 2)

/-- STRB Rd, [Rb, #imm] (R385). -/
def execTStrbImm (offset5 : BitVec 5) (rb rd : LowReg) (s : State) : Answer :=
  s.thumbStore .byte rd (s.x (lowReg rb) + scaled offset5 0)

/-- LDRB Rd, [Rb, #imm] (R386). -/
def execTLdrbImm (offset5 : BitVec 5) (rb rd : LowReg) (s : State) : Answer :=
  s.thumbLoad .byte rd (s.x (lowReg rb) + scaled offset5 0)

/-- STRH Rd, [Rb, #imm] (R388). -/
def execTStrhImm (offset5 : BitVec 5) (rb rd : LowReg) (s : State) : Answer :=
  s.thumbStore .half rd (s.x (lowReg rb) + scaled offset5 1)

/-- LDRH Rd, [Rb, #imm] (R389). -/
def execTLdrhImm (offset5 : BitVec 5) (rb rd : LowReg) (s : State) : Answer :=
  s.thumbLoad .half rd (s.x (lowReg rb) + scaled offset5 1)

/-- STR Rd, [SP, #imm] (R391). -/
def execTStrSp (rd : LowReg) (word8 : BitVec 8) (s : State) : Answer :=
  s.thumbStore .word rd (s.x 13 + scaled word8 2)

/-- LDR Rd, [SP, #imm] (R392). -/
def execTLdrSp (rd : LowReg) (word8 : BitVec 8) (s : State) : Answer :=
  s.thumbLoad .word rd (s.x 13 + scaled word8 2)

/-- PUSH, a full-descending store (R396). -/
def execTPush (r : Bool) (rlist : BitVec 8) (s : State) : Answer :=
  s.blockStore ⟨true, false⟩ true 13 (pushList r rlist)

/-- POP, the inverse of PUSH (R397). -/
def execTPop (r : Bool) (rlist : BitVec 8) (s : State) : Answer :=
  s.blockLoad ⟨false, true⟩ true 13 (popList r rlist)

/-- STMIA Rb! (R401). -/
def execTStmia (rb : LowReg) (rlist : BitVec 8) (s : State) : Answer :=
  s.blockStore ⟨false, true⟩ true (lowReg rb) (rlist.setWidth 16)

/-- LDMIA Rb! (R402). -/
def execTLdmia (rb : LowReg) (rlist : BitVec 8) (s : State) : Answer :=
  s.blockLoad ⟨false, true⟩ true (lowReg rb) (rlist.setWidth 16)

end Sys2Proof.Machine
end

