-- ==== Sys2Proof/Machine/Dispatch.lean ====
section
/-! DEFINITION. One arm per instruction: the meaning it calls. -/

namespace Sys2Proof.Machine

def exec (i : Instr) (s : State) : Host.Outcome State Fault Refusal :=
  match i with
  -- ARM data processing (R170 to R185)
  | .andImm c sb rn rd rot imm8 => Sys2Proof.Machine.execAndImm c sb rn rd rot imm8 s
  | .andShImm c sb rn rd amount ty rm => Sys2Proof.Machine.execAndShImm c sb rn rd amount ty rm s
  | .andShReg c sb rn rd rs ty rm => Sys2Proof.Machine.execAndShReg c sb rn rd rs ty rm s
  | .eorImm c sb rn rd rot imm8 => Sys2Proof.Machine.execEorImm c sb rn rd rot imm8 s
  | .eorShImm c sb rn rd amount ty rm => Sys2Proof.Machine.execEorShImm c sb rn rd amount ty rm s
  | .eorShReg c sb rn rd rs ty rm => Sys2Proof.Machine.execEorShReg c sb rn rd rs ty rm s
  | .subImm c sb rn rd rot imm8 => Sys2Proof.Machine.execSubImm c sb rn rd rot imm8 s
  | .subShImm c sb rn rd amount ty rm => Sys2Proof.Machine.execSubShImm c sb rn rd amount ty rm s
  | .subShReg c sb rn rd rs ty rm => Sys2Proof.Machine.execSubShReg c sb rn rd rs ty rm s
  | .rsbImm c sb rn rd rot imm8 => Sys2Proof.Machine.execRsbImm c sb rn rd rot imm8 s
  | .rsbShImm c sb rn rd amount ty rm => Sys2Proof.Machine.execRsbShImm c sb rn rd amount ty rm s
  | .rsbShReg c sb rn rd rs ty rm => Sys2Proof.Machine.execRsbShReg c sb rn rd rs ty rm s
  | .addImm c sb rn rd rot imm8 => Sys2Proof.Machine.execAddImm c sb rn rd rot imm8 s
  | .addShImm c sb rn rd amount ty rm => Sys2Proof.Machine.execAddShImm c sb rn rd amount ty rm s
  | .addShReg c sb rn rd rs ty rm => Sys2Proof.Machine.execAddShReg c sb rn rd rs ty rm s
  | .adcImm c sb rn rd rot imm8 => Sys2Proof.Machine.execAdcImm c sb rn rd rot imm8 s
  | .adcShImm c sb rn rd amount ty rm => Sys2Proof.Machine.execAdcShImm c sb rn rd amount ty rm s
  | .adcShReg c sb rn rd rs ty rm => Sys2Proof.Machine.execAdcShReg c sb rn rd rs ty rm s
  | .sbcImm c sb rn rd rot imm8 => Sys2Proof.Machine.execSbcImm c sb rn rd rot imm8 s
  | .sbcShImm c sb rn rd amount ty rm => Sys2Proof.Machine.execSbcShImm c sb rn rd amount ty rm s
  | .sbcShReg c sb rn rd rs ty rm => Sys2Proof.Machine.execSbcShReg c sb rn rd rs ty rm s
  | .rscImm c sb rn rd rot imm8 => Sys2Proof.Machine.execRscImm c sb rn rd rot imm8 s
  | .rscShImm c sb rn rd amount ty rm => Sys2Proof.Machine.execRscShImm c sb rn rd amount ty rm s
  | .rscShReg c sb rn rd rs ty rm => Sys2Proof.Machine.execRscShReg c sb rn rd rs ty rm s
  | .tstImm c rn rd rot imm8 => Sys2Proof.Machine.execTstImm c rn rd rot imm8 s
  | .tstShImm c rn rd amount ty rm => Sys2Proof.Machine.execTstShImm c rn rd amount ty rm s
  | .tstShReg c rn rd rs ty rm => Sys2Proof.Machine.execTstShReg c rn rd rs ty rm s
  | .teqImm c rn rd rot imm8 => Sys2Proof.Machine.execTeqImm c rn rd rot imm8 s
  | .teqShImm c rn rd amount ty rm => Sys2Proof.Machine.execTeqShImm c rn rd amount ty rm s
  | .teqShReg c rn rd rs ty rm => Sys2Proof.Machine.execTeqShReg c rn rd rs ty rm s
  | .cmpImm c rn rd rot imm8 => Sys2Proof.Machine.execCmpImm c rn rd rot imm8 s
  | .cmpShImm c rn rd amount ty rm => Sys2Proof.Machine.execCmpShImm c rn rd amount ty rm s
  | .cmpShReg c rn rd rs ty rm => Sys2Proof.Machine.execCmpShReg c rn rd rs ty rm s
  | .cmnImm c rn rd rot imm8 => Sys2Proof.Machine.execCmnImm c rn rd rot imm8 s
  | .cmnShImm c rn rd amount ty rm => Sys2Proof.Machine.execCmnShImm c rn rd amount ty rm s
  | .cmnShReg c rn rd rs ty rm => Sys2Proof.Machine.execCmnShReg c rn rd rs ty rm s
  | .orrImm c sb rn rd rot imm8 => Sys2Proof.Machine.execOrrImm c sb rn rd rot imm8 s
  | .orrShImm c sb rn rd amount ty rm => Sys2Proof.Machine.execOrrShImm c sb rn rd amount ty rm s
  | .orrShReg c sb rn rd rs ty rm => Sys2Proof.Machine.execOrrShReg c sb rn rd rs ty rm s
  | .movImm c sb rn rd rot imm8 => Sys2Proof.Machine.execMovImm c sb rn rd rot imm8 s
  | .movShImm c sb rn rd amount ty rm => Sys2Proof.Machine.execMovShImm c sb rn rd amount ty rm s
  | .movShReg c sb rn rd rs ty rm => Sys2Proof.Machine.execMovShReg c sb rn rd rs ty rm s
  | .bicImm c sb rn rd rot imm8 => Sys2Proof.Machine.execBicImm c sb rn rd rot imm8 s
  | .bicShImm c sb rn rd amount ty rm => Sys2Proof.Machine.execBicShImm c sb rn rd amount ty rm s
  | .bicShReg c sb rn rd rs ty rm => Sys2Proof.Machine.execBicShReg c sb rn rd rs ty rm s
  | .mvnImm c sb rn rd rot imm8 => Sys2Proof.Machine.execMvnImm c sb rn rd rot imm8 s
  | .mvnShImm c sb rn rd amount ty rm => Sys2Proof.Machine.execMvnShImm c sb rn rd amount ty rm s
  | .mvnShReg c sb rn rd rs ty rm => Sys2Proof.Machine.execMvnShReg c sb rn rd rs ty rm s
  -- ARM multiply (R203 to R208)
  | .mul c sb rd rn rs rm => Sys2Proof.Machine.execMul c sb rd rn rs rm s
  | .mla c sb rd rn rs rm => Sys2Proof.Machine.execMla c sb rd rn rs rm s
  | .umull c sb rdHi rdLo rs rm => Sys2Proof.Machine.execUmull c sb rdHi rdLo rs rm s
  | .umlal c sb rdHi rdLo rs rm => Sys2Proof.Machine.execUmlal c sb rdHi rdLo rs rm s
  | .smull c sb rdHi rdLo rs rm => Sys2Proof.Machine.execSmull c sb rdHi rdLo rs rm s
  | .smlal c sb rdHi rdLo rs rm => Sys2Proof.Machine.execSmlal c sb rdHi rdLo rs rm s
  -- ARM PSR transfer (R222, R224, R225)
  | .mrs c ps rd => Sys2Proof.Machine.execMrs c ps rd s
  | .msrReg c ps mask rm => Sys2Proof.Machine.execMsrReg c ps mask rm s
  | .msrImm c ps mask rot imm8 => Sys2Proof.Machine.execMsrImm c ps mask rot imm8 s
  -- ARM single, halfword and swap transfers (R246 to R263)
  | .ldrImmPre c up w rn rd imm12 => Sys2Proof.Machine.execLdrImmPre c up w rn rd imm12 s
  | .ldrImmPost c up rn rd imm12 => Sys2Proof.Machine.execLdrImmPost c up rn rd imm12 s
  | .ldrtImm c up rn rd imm12 => Sys2Proof.Machine.execLdrtImm c up rn rd imm12 s
  | .ldrRegPre c up w rn rd amount ty rm => Sys2Proof.Machine.execLdrRegPre c up w rn rd amount ty rm s
  | .ldrRegPost c up rn rd amount ty rm => Sys2Proof.Machine.execLdrRegPost c up rn rd amount ty rm s
  | .ldrtReg c up rn rd amount ty rm => Sys2Proof.Machine.execLdrtReg c up rn rd amount ty rm s
  | .strImmPre c up w rn rd imm12 => Sys2Proof.Machine.execStrImmPre c up w rn rd imm12 s
  | .strImmPost c up rn rd imm12 => Sys2Proof.Machine.execStrImmPost c up rn rd imm12 s
  | .strtImm c up rn rd imm12 => Sys2Proof.Machine.execStrtImm c up rn rd imm12 s
  | .strRegPre c up w rn rd amount ty rm => Sys2Proof.Machine.execStrRegPre c up w rn rd amount ty rm s
  | .strRegPost c up rn rd amount ty rm => Sys2Proof.Machine.execStrRegPost c up rn rd amount ty rm s
  | .strtReg c up rn rd amount ty rm => Sys2Proof.Machine.execStrtReg c up rn rd amount ty rm s
  | .ldrbImmPre c up w rn rd imm12 => Sys2Proof.Machine.execLdrbImmPre c up w rn rd imm12 s
  | .ldrbImmPost c up rn rd imm12 => Sys2Proof.Machine.execLdrbImmPost c up rn rd imm12 s
  | .ldrbtImm c up rn rd imm12 => Sys2Proof.Machine.execLdrbtImm c up rn rd imm12 s
  | .ldrbRegPre c up w rn rd amount ty rm => Sys2Proof.Machine.execLdrbRegPre c up w rn rd amount ty rm s
  | .ldrbRegPost c up rn rd amount ty rm => Sys2Proof.Machine.execLdrbRegPost c up rn rd amount ty rm s
  | .ldrbtReg c up rn rd amount ty rm => Sys2Proof.Machine.execLdrbtReg c up rn rd amount ty rm s
  | .strbImmPre c up w rn rd imm12 => Sys2Proof.Machine.execStrbImmPre c up w rn rd imm12 s
  | .strbImmPost c up rn rd imm12 => Sys2Proof.Machine.execStrbImmPost c up rn rd imm12 s
  | .strbtImm c up rn rd imm12 => Sys2Proof.Machine.execStrbtImm c up rn rd imm12 s
  | .strbRegPre c up w rn rd amount ty rm => Sys2Proof.Machine.execStrbRegPre c up w rn rd amount ty rm s
  | .strbRegPost c up rn rd amount ty rm => Sys2Proof.Machine.execStrbRegPost c up rn rd amount ty rm s
  | .strbtReg c up rn rd amount ty rm => Sys2Proof.Machine.execStrbtReg c up rn rd amount ty rm s
  | .strhReg c p up w rn rd rm => Sys2Proof.Machine.execStrhReg c p up w rn rd rm s
  | .strhImm c p up w rn rd imm8 => Sys2Proof.Machine.execStrhImm c p up w rn rd imm8 s
  | .ldrhReg c p up w rn rd rm => Sys2Proof.Machine.execLdrhReg c p up w rn rd rm s
  | .ldrhImm c p up w rn rd imm8 => Sys2Proof.Machine.execLdrhImm c p up w rn rd imm8 s
  | .ldrsbReg c p up w rn rd rm => Sys2Proof.Machine.execLdrsbReg c p up w rn rd rm s
  | .ldrsbImm c p up w rn rd imm8 => Sys2Proof.Machine.execLdrsbImm c p up w rn rd imm8 s
  | .ldrshReg c p up w rn rd rm => Sys2Proof.Machine.execLdrshReg c p up w rn rd rm s
  | .ldrshImm c p up w rn rd imm8 => Sys2Proof.Machine.execLdrshImm c p up w rn rd imm8 s
  | .swp c rn rd rm => Sys2Proof.Machine.execSwp c rn rd rm s
  | .swpb c rn rd rm => Sys2Proof.Machine.execSwpb c rn rd rm s
  -- ARM block transfer (R284 to R289)
  | .ldm c p up w rn list => Sys2Proof.Machine.execLdm c p up w rn list s
  | .ldmUser c p up w rn list => Sys2Proof.Machine.execLdmUser c p up w rn list s
  | .ldmRestore c p up w rn list => Sys2Proof.Machine.execLdmRestore c p up w rn list s
  | .stm c p up w rn list => Sys2Proof.Machine.execStm c p up w rn list s
  | .stmUser c p up w rn list => Sys2Proof.Machine.execStmUser c p up w rn list s
  -- ARM branches, SWI, undefined (R301 to R308)
  | .b c offset24 => Sys2Proof.Machine.execB c offset24 s
  | .bl c offset24 => Sys2Proof.Machine.execBl c offset24 s
  | .bx c rn => Sys2Proof.Machine.execBx c rn s
  | .blx c rn => Sys2Proof.Machine.execBlx c rn s
  | .swi c comment24 => Sys2Proof.Machine.execSwi c comment24 s
  | .undefinedPattern c => Sys2Proof.Machine.execUndefinedPattern c s
  -- THUMB forms 1 to 5, 12, 13 (R323 to R364)
  | .tLslImm amount rs rd => Sys2Proof.Machine.execTLslImm amount rs rd s
  | .tLsrImm amount rs rd => Sys2Proof.Machine.execTLsrImm amount rs rd s
  | .tAsrImm amount rs rd => Sys2Proof.Machine.execTAsrImm amount rs rd s
  | .tAddReg rn rs rd => Sys2Proof.Machine.execTAddReg rn rs rd s
  | .tSubReg rn rs rd => Sys2Proof.Machine.execTSubReg rn rs rd s
  | .tAddImm3 imm3 rs rd => Sys2Proof.Machine.execTAddImm3 imm3 rs rd s
  | .tSubImm3 imm3 rs rd => Sys2Proof.Machine.execTSubImm3 imm3 rs rd s
  | .tMovImm rd imm8 => Sys2Proof.Machine.execTMovImm rd imm8 s
  | .tCmpImm rd imm8 => Sys2Proof.Machine.execTCmpImm rd imm8 s
  | .tAddImm rd imm8 => Sys2Proof.Machine.execTAddImm rd imm8 s
  | .tSubImm rd imm8 => Sys2Proof.Machine.execTSubImm rd imm8 s
  | .tAnd rs rd => Sys2Proof.Machine.execTAnd rs rd s
  | .tEor rs rd => Sys2Proof.Machine.execTEor rs rd s
  | .tLslReg rs rd => Sys2Proof.Machine.execTLslReg rs rd s
  | .tLsrReg rs rd => Sys2Proof.Machine.execTLsrReg rs rd s
  | .tAsrReg rs rd => Sys2Proof.Machine.execTAsrReg rs rd s
  | .tAdc rs rd => Sys2Proof.Machine.execTAdc rs rd s
  | .tSbc rs rd => Sys2Proof.Machine.execTSbc rs rd s
  | .tRorReg rs rd => Sys2Proof.Machine.execTRorReg rs rd s
  | .tTst rs rd => Sys2Proof.Machine.execTTst rs rd s
  | .tNeg rs rd => Sys2Proof.Machine.execTNeg rs rd s
  | .tCmpReg rs rd => Sys2Proof.Machine.execTCmpReg rs rd s
  | .tCmn rs rd => Sys2Proof.Machine.execTCmn rs rd s
  | .tOrr rs rd => Sys2Proof.Machine.execTOrr rs rd s
  | .tMul rs rd => Sys2Proof.Machine.execTMul rs rd s
  | .tBic rs rd => Sys2Proof.Machine.execTBic rs rd s
  | .tMvn rs rd => Sys2Proof.Machine.execTMvn rs rd s
  | .tAddHi rd rs => Sys2Proof.Machine.execTAddHi rd rs s
  | .tCmpHi rd rs => Sys2Proof.Machine.execTCmpHi rd rs s
  | .tMovHi rd rs => Sys2Proof.Machine.execTMovHi rd rs s
  | .tBx rs => Sys2Proof.Machine.execTBx rs s
  -- THUMB forms 6 to 11, 14, 15 (R371 to R402)
  | .tLdrPc rd word8 => Sys2Proof.Machine.execTLdrPc rd word8 s
  | .tStrReg ro rb rd => Sys2Proof.Machine.execTStrReg ro rb rd s
  | .tStrbReg ro rb rd => Sys2Proof.Machine.execTStrbReg ro rb rd s
  | .tLdrReg ro rb rd => Sys2Proof.Machine.execTLdrReg ro rb rd s
  | .tLdrbReg ro rb rd => Sys2Proof.Machine.execTLdrbReg ro rb rd s
  | .tStrhReg ro rb rd => Sys2Proof.Machine.execTStrhReg ro rb rd s
  | .tLdrhReg ro rb rd => Sys2Proof.Machine.execTLdrhReg ro rb rd s
  | .tLdsb ro rb rd => Sys2Proof.Machine.execTLdsb ro rb rd s
  | .tLdsh ro rb rd => Sys2Proof.Machine.execTLdsh ro rb rd s
  | .tStrImm offset5 rb rd => Sys2Proof.Machine.execTStrImm offset5 rb rd s
  | .tLdrImm offset5 rb rd => Sys2Proof.Machine.execTLdrImm offset5 rb rd s
  | .tStrbImm offset5 rb rd => Sys2Proof.Machine.execTStrbImm offset5 rb rd s
  | .tLdrbImm offset5 rb rd => Sys2Proof.Machine.execTLdrbImm offset5 rb rd s
  | .tStrhImm offset5 rb rd => Sys2Proof.Machine.execTStrhImm offset5 rb rd s
  | .tLdrhImm offset5 rb rd => Sys2Proof.Machine.execTLdrhImm offset5 rb rd s
  | .tStrSp rd word8 => Sys2Proof.Machine.execTStrSp rd word8 s
  | .tLdrSp rd word8 => Sys2Proof.Machine.execTLdrSp rd word8 s
  -- THUMB forms 1 to 5, 12, 13 (R323 to R364)
  | .tAddPc rd word8 => Sys2Proof.Machine.execTAddPc rd word8 s
  | .tAddSp rd word8 => Sys2Proof.Machine.execTAddSp rd word8 s
  | .tSpAdd sword7 => Sys2Proof.Machine.execTSpAdd sword7 s
  | .tSpSub sword7 => Sys2Proof.Machine.execTSpSub sword7 s
  -- THUMB forms 6 to 11, 14, 15 (R371 to R402)
  | .tPush r rlist => Sys2Proof.Machine.execTPush r rlist s
  | .tPop r rlist => Sys2Proof.Machine.execTPop r rlist s
  | .tStmia rb rlist => Sys2Proof.Machine.execTStmia rb rlist s
  | .tLdmia rb rlist => Sys2Proof.Machine.execTLdmia rb rlist s
  -- THUMB forms 16 to 19 (R412 to R421)
  | .tBeq soffset8 => Sys2Proof.Machine.execTBeq soffset8 s
  | .tBne soffset8 => Sys2Proof.Machine.execTBne soffset8 s
  | .tBcs soffset8 => Sys2Proof.Machine.execTBcs soffset8 s
  | .tBcc soffset8 => Sys2Proof.Machine.execTBcc soffset8 s
  | .tBmi soffset8 => Sys2Proof.Machine.execTBmi soffset8 s
  | .tBpl soffset8 => Sys2Proof.Machine.execTBpl soffset8 s
  | .tBvs soffset8 => Sys2Proof.Machine.execTBvs soffset8 s
  | .tBvc soffset8 => Sys2Proof.Machine.execTBvc soffset8 s
  | .tBhi soffset8 => Sys2Proof.Machine.execTBhi soffset8 s
  | .tBls soffset8 => Sys2Proof.Machine.execTBls soffset8 s
  | .tBge soffset8 => Sys2Proof.Machine.execTBge soffset8 s
  | .tBlt soffset8 => Sys2Proof.Machine.execTBlt soffset8 s
  | .tBgt soffset8 => Sys2Proof.Machine.execTBgt soffset8 s
  | .tBle soffset8 => Sys2Proof.Machine.execTBle soffset8 s
  | .tSwi value8 => Sys2Proof.Machine.execTSwi value8 s
  | .tB offset11 => Sys2Proof.Machine.execTB offset11 s
  | .tBlHigh offset11 => Sys2Proof.Machine.execTBlHigh offset11 s
  | .tBlLow offset11 => Sys2Proof.Machine.execTBlLow offset11 s
  | .tBlxLow offset11 => Sys2Proof.Machine.execTBlxLow offset11 s

end Sys2Proof.Machine
end

