-- ==== Sys2Proof/Machine/Undecoded.lean ====
section
/-! DEFINITION. Between decoding and execution (spec/49_execution_loop.md R432 to R436): the word a step decodes, what a
word that is no instruction does, the end of a step, and an instruction placed by hand for the next step. -/

namespace Sys2Proof.Machine

/-- The instruction word of the step: all of the slot's word in ARM state, its low 16 bits in THUMB state (R432, R435). -/
def State.slotCode (s : State) : Code := if s.cpsr.t then .thumb (s.slot.word.setWidth 16) else .arm s.slot.word

/-- What a word the decoder rejects does: condition field 1111 first (R97, R434); an unallocated word takes the undefined
route, in ARM state when its condition passes (R309, R425). A slot always holds a whole instruction, so `truncated` does
not occur. -/
def State.undecoded (s : State) (why : Reject) : Answer :=
  match why with
  | .conditionNv => s.conditionNv
  | .unallocatedArm c _ => s.ifCond c s.undefinedRoute
  | .unallocatedThumb => s.undefinedRoute
  | .truncated => s.undefinedRoute

/-- The last act of a step: the refill (R436). -/
def finishStep (o : Answer) : Answer :=
  match o with
  | .next s => .next s.refill
  | .fault r => .fault r
  | .refused r => .refused r

/-- Place an instruction at the stored r15 and in the slot, and select its instruction set; see `State.withFetchWord`. -/
def State.placeInstr (s : State) (k : Code) : State :=
  let thumb : Bool := match k with
    | .arm _ => false
    | .thumb _ => true
  let at_ := alignFor thumb s.pc
  let m := match k with
    | .arm w => s.mem.write32 at_ w
    | .thumb h => s.mem.write16 at_ h
  let t : State := { s.setPc at_ with
    cpsr := { s.cpsr with t := thumb }
    mem := m
    irq := { s.irq with ime := false } }
  { t with slot := t.fetched }

end Sys2Proof.Machine
end

