-- ==== Sys2Proof/Machine/Step.lean ====
section
/-! DEFINITION. One step of the core (spec/49_execution_loop.md R430 to R440), and the placing of an instruction where the
next step executes it. -/

namespace Sys2Proof.Machine

/-- The whole step (R440): take an IRQ, or advance r15 and execute the instruction whose word is in the slot; then refill
the slot. The instruction comes from the slot, not from memory (R40, R444). -/
def step (s : State) : Host.Outcome State Fault Refusal :=
  if s.irqTaken then .next s.openStep.takeIrq.refill
  else
    let begun := s.openStep.advance
    match decode s.slotCode with
    | .ok i => finishStep (exec i begun)
    | .error why => finishStep (begun.undecoded why)

/-- The state with one instruction placed where the next step executes it: its bytes at the stored r15, the slot filled
from there, CPSR.T the set it belongs to (16 bits THUMB, else ARM), r15 aligned for that set, and no interrupt requested.
Nothing else changes (log entry 4). -/
def State.withFetchWord (s : State) (nbits w : Nat) : State :=
  s.placeInstr (if nbits = 16 then .thumb (BitVec.ofNat 16 w) else .arm (BitVec.ofNat 32 w))

end Sys2Proof.Machine
end

