-- ==== Sys2Proof/Machine/Environment.lean ====
section
/-! DEFINITION. The environment's turn between two steps (spec/20_memory.md R82, spec/10_state.md R42): other bus masters
write memory, and peripherals set the interrupt words. It touches no state of the core. -/

namespace Sys2Proof.Machine

/-- One act of the environment. -/
inductive EnvAction where
  /-- Another bus master writes one byte. -/
  | writeByte (a : Word) (v : Byte)
  /-- Peripherals leave the interrupt words at these values. -/
  | setInterrupts (ime : Bool) (ie iff : BitVec 14)
deriving DecidableEq, Repr

/-- The state after one act of the environment (R82). -/
def State.environment (s : State) (e : EnvAction) : State :=
  match e with
  | .writeByte a v => { s with mem := s.mem.write8 a v }
  | .setInterrupts ime ie iff => { s with irq := { ime := ime, ie := ie, iff := iff } }

/-- A run with the environment acting between steps: before each step, the acts listed for it (R430). -/
def runWith : List (List EnvAction) → State → Answer
  | [], s => .next s
  | acts :: rest, s =>
    match step (acts.foldl State.environment s) with
    | .next t => runWith rest t
    | .fault r => .fault r
    | .refused r => .refused r

end Sys2Proof.Machine
end

