-- ==== Sys2Proof/Safety.lean ====
section
/-! DEFINITION. What holds at every step boundary (spec/10_state.md R38, spec/49_execution_loop.md R441), and runs up to a
stopping predicate, the parameter `STOP` (R443). -/

namespace Sys2Proof.Machine

/-- r15 is aligned for the state of CPSR.T (R28). -/
def State.pcAligned (s : State) : Bool := s.pc == alignFor s.cpsr.t s.pc

/-- The slot's address is r15 (R40). -/
def State.slotAtPc (s : State) : Bool := s.slot.addr == s.pc

/-- The slot holds what a fetch at r15 gives now; an environment write to that address can end this until the next refill
(R40, R444). -/
def State.slotFresh (s : State) : Bool := s.slot == s.fetched

/-- The invariants of a step boundary (R38, R441), and the canonical form of memory.
R38 (b), CPSR.M is a recognised mode, holds by the type of the CPSR; R38 (a) is the fetch width in `State.fetched`. -/
def State.inv (s : State) : Bool := s.pcAligned && s.slotAtPc && s.mem.wf

/-- A run of at most `n` steps that ends at the first step boundary where `stop` holds (R443). -/
def runUntil (stop : State → Bool) : Nat → State → Answer
  | 0, s => .next s
  | n + 1, s =>
    if stop s then .next s
    else
      match step s with
      | .next t => runUntil stop n t
      | .fault r => .fault r
      | .refused r => .refused r

/-- A state from which the next step has a meaning: no step faults, so only a refusal can stop the machine. -/
def State.canStep (s : State) : Prop := ∃ t, step s = .next t

end Sys2Proof.Machine
end

