-- ==== Sys2Proof/WellFormed.lean ====
section
/-! DEFINITION. Well-formed instructions: the operand combinations the spec refuses (spec/93_implementation_defined.md U3,
U12, U15, U16, U17) are ill-formed, everything else is well-formed. What depends on the state (an SPSR write in USER or
SYSTEM mode, a restored mode that is none) is no matter of form. The ranges of the fields are in their types. -/

namespace Sys2Proof

/-- What can be wrong with an instruction's operands. -/
inductive Defect where
  /-- A multiply breaks R202. -/
  | restrictedMultiply
  /-- r15 where it is forbidden (R231, R242, R243, R259, R261, R291). -/
  | forbiddenR15
  /-- A halfword or signed transfer is post-indexed with W set (R259). -/
  | halfwordPostIndexedW
  /-- A block transfer lists no register (R290, R395, R400). -/
  | emptyRegisterList
  /-- A user-bank transfer asks for writeback (R285, R289). -/
  | userBankWriteback
deriving DecidableEq, Repr

/-- The defect when the test holds. -/
def defectIf (b : Bool) (d : Defect) : Option Defect := if b then some d else none

/-- The first defect of two tests. -/
def Defect.first (a b : Option Defect) : Option Defect := a.orElse fun _ => b

/-- MUL and MLA, `rn` being the addend when there is one (R202). -/
def mulDefect (rd rs rm : Reg) (rn : Option Reg) : Option Defect :=
  defectIf (rd == 15 || rs == 15 || rm == 15 || rd == rm || rn == some 15) .restrictedMultiply

/-- The long multiplies (R202). -/
def mulLongDefect (rdHi rdLo rs rm : Reg) : Option Defect :=
  defectIf (rdHi == 15 || rdLo == 15 || rs == 15 || rm == 15 || rdHi == rdLo || rdHi == rm || rdLo == rm)
    .restrictedMultiply

/-- A single transfer: the offset register, and the base when it is written back (R242, R243). -/
def singleDefect (writesBack : Bool) (rn : Reg) (rm : Option Reg) : Option Defect :=
  defectIf (rm == some 15 || (rn == 15 && writesBack)) .forbiddenR15

/-- A halfword or signed transfer; `load` when Rd is loaded (R259). -/
def halfDefect (load p w : Bool) (rn rd : Reg) (rm : Option Reg) : Option Defect :=
  Defect.first (defectIf (!p && w) .halfwordPostIndexedW)
    (defectIf (rm == some 15 || (rn == 15 && (!p || w)) || (load && rd == 15)) .forbiddenR15)

/-- SWP and SWPB (R261). -/
def swapDefect (rn rd rm : Reg) : Option Defect := defectIf (rn == 15 || rd == 15 || rm == 15) .forbiddenR15

/-- A block transfer; `empty` says that its list is, `userWriteback` that a user-bank form has W set (R285, R289 to R291). -/
def blockDefect (empty userWriteback : Bool) (rn : Reg) : Option Defect :=
  Defect.first (defectIf empty .emptyRegisterList)
    (Defect.first (defectIf (rn == 15) .forbiddenR15) (defectIf userWriteback .userBankWriteback))

/-- The first thing wrong with an instruction's operands, in the order the checks are listed above. -/
def Instr.defect? : Instr → Option Defect
  | .andImm _ _ _ _ _ _ => none
  | .andShImm _ _ _ _ _ _ _ => none
  | .andShReg _ _ _ _ _ _ _ => none
  | .eorImm _ _ _ _ _ _ => none
  | .eorShImm _ _ _ _ _ _ _ => none
  | .eorShReg _ _ _ _ _ _ _ => none
  | .subImm _ _ _ _ _ _ => none
  | .subShImm _ _ _ _ _ _ _ => none
  | .subShReg _ _ _ _ _ _ _ => none
  | .rsbImm _ _ _ _ _ _ => none
  | .rsbShImm _ _ _ _ _ _ _ => none
  | .rsbShReg _ _ _ _ _ _ _ => none
  | .addImm _ _ _ _ _ _ => none
  | .addShImm _ _ _ _ _ _ _ => none
  | .addShReg _ _ _ _ _ _ _ => none
  | .adcImm _ _ _ _ _ _ => none
  | .adcShImm _ _ _ _ _ _ _ => none
  | .adcShReg _ _ _ _ _ _ _ => none
  | .sbcImm _ _ _ _ _ _ => none
  | .sbcShImm _ _ _ _ _ _ _ => none
  | .sbcShReg _ _ _ _ _ _ _ => none
  | .rscImm _ _ _ _ _ _ => none
  | .rscShImm _ _ _ _ _ _ _ => none
  | .rscShReg _ _ _ _ _ _ _ => none
  | .tstImm _ _ _ _ _ => none
  | .tstShImm _ _ _ _ _ _ => none
  | .tstShReg _ _ _ _ _ _ => none
  | .teqImm _ _ _ _ _ => none
  | .teqShImm _ _ _ _ _ _ => none
  | .teqShReg _ _ _ _ _ _ => none
  | .cmpImm _ _ _ _ _ => none
  | .cmpShImm _ _ _ _ _ _ => none
  | .cmpShReg _ _ _ _ _ _ => none
  | .cmnImm _ _ _ _ _ => none
  | .cmnShImm _ _ _ _ _ _ => none
  | .cmnShReg _ _ _ _ _ _ => none
  | .orrImm _ _ _ _ _ _ => none
  | .orrShImm _ _ _ _ _ _ _ => none
  | .orrShReg _ _ _ _ _ _ _ => none
  | .movImm _ _ _ _ _ _ => none
  | .movShImm _ _ _ _ _ _ _ => none
  | .movShReg _ _ _ _ _ _ _ => none
  | .bicImm _ _ _ _ _ _ => none
  | .bicShImm _ _ _ _ _ _ _ => none
  | .bicShReg _ _ _ _ _ _ _ => none
  | .mvnImm _ _ _ _ _ _ => none
  | .mvnShImm _ _ _ _ _ _ _ => none
  | .mvnShReg _ _ _ _ _ _ _ => none
  | .mul _ _ rd _ rs rm => mulDefect rd rs rm none
  | .mla _ _ rd rn rs rm => mulDefect rd rs rm (some rn)
  | .umull _ _ rdHi rdLo rs rm => mulLongDefect rdHi rdLo rs rm
  | .umlal _ _ rdHi rdLo rs rm => mulLongDefect rdHi rdLo rs rm
  | .smull _ _ rdHi rdLo rs rm => mulLongDefect rdHi rdLo rs rm
  | .smlal _ _ rdHi rdLo rs rm => mulLongDefect rdHi rdLo rs rm
  | .mrs _ _ rd => defectIf (rd == 15) .forbiddenR15
  | .msrReg _ _ _ rm => defectIf (rm == 15) .forbiddenR15
  | .msrImm _ _ _ _ _ => none
  | .ldrImmPre _ _ w rn _ _ => singleDefect w rn none
  | .ldrImmPost _ _ rn _ _ => singleDefect true rn none
  | .ldrtImm _ _ rn _ _ => singleDefect true rn none
  | .ldrRegPre _ _ w rn _ _ _ rm => singleDefect w rn (some rm)
  | .ldrRegPost _ _ rn _ _ _ rm => singleDefect true rn (some rm)
  | .ldrtReg _ _ rn _ _ _ rm => singleDefect true rn (some rm)
  | .strImmPre _ _ w rn _ _ => singleDefect w rn none
  | .strImmPost _ _ rn _ _ => singleDefect true rn none
  | .strtImm _ _ rn _ _ => singleDefect true rn none
  | .strRegPre _ _ w rn _ _ _ rm => singleDefect w rn (some rm)
  | .strRegPost _ _ rn _ _ _ rm => singleDefect true rn (some rm)
  | .strtReg _ _ rn _ _ _ rm => singleDefect true rn (some rm)
  | .ldrbImmPre _ _ w rn _ _ => singleDefect w rn none
  | .ldrbImmPost _ _ rn _ _ => singleDefect true rn none
  | .ldrbtImm _ _ rn _ _ => singleDefect true rn none
  | .ldrbRegPre _ _ w rn _ _ _ rm => singleDefect w rn (some rm)
  | .ldrbRegPost _ _ rn _ _ _ rm => singleDefect true rn (some rm)
  | .ldrbtReg _ _ rn _ _ _ rm => singleDefect true rn (some rm)
  | .strbImmPre _ _ w rn _ _ => singleDefect w rn none
  | .strbImmPost _ _ rn _ _ => singleDefect true rn none
  | .strbtImm _ _ rn _ _ => singleDefect true rn none
  | .strbRegPre _ _ w rn _ _ _ rm => singleDefect w rn (some rm)
  | .strbRegPost _ _ rn _ _ _ rm => singleDefect true rn (some rm)
  | .strbtReg _ _ rn _ _ _ rm => singleDefect true rn (some rm)
  | .strhReg _ p _ w rn rd rm => halfDefect false p w rn rd (some rm)
  | .strhImm _ p _ w rn rd _ => halfDefect false p w rn rd none
  | .ldrhReg _ p _ w rn rd rm => halfDefect true p w rn rd (some rm)
  | .ldrhImm _ p _ w rn rd _ => halfDefect true p w rn rd none
  | .ldrsbReg _ p _ w rn rd rm => halfDefect true p w rn rd (some rm)
  | .ldrsbImm _ p _ w rn rd _ => halfDefect true p w rn rd none
  | .ldrshReg _ p _ w rn rd rm => halfDefect true p w rn rd (some rm)
  | .ldrshImm _ p _ w rn rd _ => halfDefect true p w rn rd none
  | .swp _ rn rd rm => swapDefect rn rd rm
  | .swpb _ rn rd rm => swapDefect rn rd rm
  | .ldm _ _ _ _ rn list => blockDefect (list == 0) false rn
  | .ldmUser _ _ _ w rn list => blockDefect (list == 0) w rn
  | .ldmRestore _ _ _ _ rn _ => blockDefect false false rn
  | .stm _ _ _ _ rn list => blockDefect (list == 0) false rn
  | .stmUser _ _ _ w rn list => blockDefect (list == 0) w rn
  | .b _ _ => none
  | .bl _ _ => none
  | .bx _ _ => none
  | .blx _ _ => none
  | .swi _ _ => none
  | .undefinedPattern _ => none
  | .tLslImm _ _ _ => none
  | .tLsrImm _ _ _ => none
  | .tAsrImm _ _ _ => none
  | .tAddReg _ _ _ => none
  | .tSubReg _ _ _ => none
  | .tAddImm3 _ _ _ => none
  | .tSubImm3 _ _ _ => none
  | .tMovImm _ _ => none
  | .tCmpImm _ _ => none
  | .tAddImm _ _ => none
  | .tSubImm _ _ => none
  | .tAnd _ _ => none
  | .tEor _ _ => none
  | .tLslReg _ _ => none
  | .tLsrReg _ _ => none
  | .tAsrReg _ _ => none
  | .tAdc _ _ => none
  | .tSbc _ _ => none
  | .tRorReg _ _ => none
  | .tTst _ _ => none
  | .tNeg _ _ => none
  | .tCmpReg _ _ => none
  | .tCmn _ _ => none
  | .tOrr _ _ => none
  | .tMul _ _ => none
  | .tBic _ _ => none
  | .tMvn _ _ => none
  | .tAddHi _ _ => none
  | .tCmpHi _ _ => none
  | .tMovHi _ _ => none
  | .tBx _ => none
  | .tLdrPc _ _ => none
  | .tStrReg _ _ _ => none
  | .tStrbReg _ _ _ => none
  | .tLdrReg _ _ _ => none
  | .tLdrbReg _ _ _ => none
  | .tStrhReg _ _ _ => none
  | .tLdrhReg _ _ _ => none
  | .tLdsb _ _ _ => none
  | .tLdsh _ _ _ => none
  | .tStrImm _ _ _ => none
  | .tLdrImm _ _ _ => none
  | .tStrbImm _ _ _ => none
  | .tLdrbImm _ _ _ => none
  | .tStrhImm _ _ _ => none
  | .tLdrhImm _ _ _ => none
  | .tStrSp _ _ => none
  | .tLdrSp _ _ => none
  | .tAddPc _ _ => none
  | .tAddSp _ _ => none
  | .tSpAdd _ => none
  | .tSpSub _ => none
  | .tPush r rlist => defectIf (rlist == 0 && !r) .emptyRegisterList
  | .tPop r rlist => defectIf (rlist == 0 && !r) .emptyRegisterList
  | .tStmia _ rlist => defectIf (rlist == 0) .emptyRegisterList
  | .tLdmia _ rlist => defectIf (rlist == 0) .emptyRegisterList
  | .tBeq _ => none
  | .tBne _ => none
  | .tBcs _ => none
  | .tBcc _ => none
  | .tBmi _ => none
  | .tBpl _ => none
  | .tBvs _ => none
  | .tBvc _ => none
  | .tBhi _ => none
  | .tBls _ => none
  | .tBge _ => none
  | .tBlt _ => none
  | .tBgt _ => none
  | .tBle _ => none
  | .tSwi _ => none
  | .tB _ => none
  | .tBlHigh _ => none
  | .tBlLow _ => none
  | .tBlxLow _ => none

/-- An instruction whose operands the spec gives a meaning. -/
def WellFormed (i : Instr) : Bool := i.defect? == none

end Sys2Proof
end

