-- ==== Sys2Proof/Claims.lean ====
section
/-! DEFINITION. The words the statements of Certificates/ are written in: what is left alone, the values the rules give
(in integers, bits and bytes rather than by the model's own operations), and a name for every instruction of a family by
its operation and operand form. -/

namespace Sys2Proof.Claims

open Sys2Proof.Machine

/-! ## What is left alone -/

/-- Every cell but those listed, every SPSR, the slot and the inputs are as before; the step's bus calls so far are
followed by those listed, and `branched` is set when asked for. -/
structure Frame (s t : State) (written : List Cell) (calls : List BusCall) (branched : Bool) : Prop where
  cells : ∀ c, c ∉ written → t.getCell c = s.getCell c
  spsrs : t.spsrs = s.spsrs
  slot : t.slot = s.slot
  irq : t.irq = s.irq
  cfg : t.cfg = s.cfg
  now : t.now = { ia := s.now.ia, branched := s.now.branched || branched, calls := s.now.calls ++ calls }

/-- N, Z, C and V after. -/
def FlagsAre (t : State) (n z c v : Bool) : Prop :=
  t.cpsr.n = n ∧ t.cpsr.z = z ∧ t.cpsr.c = c ∧ t.cpsr.v = v

/-- N, Z, C and V as before. -/
def SameFlags (s t : State) : Prop := FlagsAre t s.cpsr.n s.cpsr.z s.cpsr.c s.cpsr.v

/-- I, F, T and M as before. -/
def SameControl (s t : State) : Prop :=
  t.cpsr.i = s.cpsr.i ∧ t.cpsr.f = s.cpsr.f ∧ t.cpsr.t = s.cpsr.t ∧ t.cpsr.m = s.cpsr.m

/-- Every byte of memory reads as before. -/
def SameBytes (s t : State) : Prop := ∀ a : Word, t.mem.read8 a = s.mem.read8 a

/-- Bytes of an access. -/
def widthBytes : Width → Nat
  | .byte => 1
  | .half => 2
  | .word => 4

/-- `b` is one of the bytes that a store of this width to `a` writes: it starts at `storeAddr`, where the core aligns it. -/
def Stored (w : Width) (a b : Word) : Prop := (b - storeAddr w a).toNat < widthBytes w

/-- Memory after a store of the low bytes of `v`: those bytes, low byte first, and every other byte as before. -/
def StoredBytes (s t : State) (w : Width) (a v : Word) : Prop :=
  (∀ k, k < widthBytes w → t.mem.read8 (storeAddr w a + BitVec.ofNat 32 k) = v.extractLsb' (8 * k) 8) ∧
    ∀ b, ¬Stored w a b → t.mem.read8 b = s.mem.read8 b

/-- A meaning answers a next state, and what that state is. -/
def Answers (i : Instr) (s : State) (post : State → Prop) : Prop := ∃ t, exec i s = .next t ∧ post t

/-- Registers and flags only: one cell written at most, no branch, no bus call, no byte of memory, no control bit. -/
def Quiet (s t : State) (written : List Cell) : Prop :=
  SameControl s t ∧ Frame s t written [] false ∧ SameBytes s t

/-- The condition of an ARM instruction holds. -/
def Passes (c : Cond) (s : State) : Prop := condPassed c s.cpsr.flags = true

/-! ## Values -/

/-- A word as an unsigned number. -/
def unsigned (a : Word) : Int := a.toNat

/-- A Boolean as 0 or 1. -/
def bitValue (b : Bool) : Int := if b then 1 else 0

/-- N of a result: its top bit (R131). -/
def negative {n : Nat} (r : BitVec n) : Bool := r.getLsbD (n - 1)

/-- Z of a result (R131). -/
def isZero {n : Nat} (r : BitVec n) : Bool := decide (r.toNat = 0)

/-- A number does not fit two's complement in 32 bits. -/
def overflows (x : Int) : Bool := decide (x < -2 ^ 31 ∨ 2 ^ 31 ≤ x)

/-- The result of a data-processing opcode (R170 to R185). -/
def dataValue (op : DpOp) (a b : Word) (cin : Bool) : Word :=
  match op with
  | .and => a &&& b
  | .eor => a ^^^ b
  | .sub => BitVec.ofInt 32 (unsigned a - unsigned b)
  | .rsb => BitVec.ofInt 32 (unsigned b - unsigned a)
  | .add => BitVec.ofInt 32 (unsigned a + unsigned b)
  | .adc => BitVec.ofInt 32 (unsigned a + unsigned b + bitValue cin)
  | .sbc => BitVec.ofInt 32 (unsigned a - unsigned b - (1 - bitValue cin))
  | .rsc => BitVec.ofInt 32 (unsigned b - unsigned a - (1 - bitValue cin))
  | .tst => a &&& b
  | .teq => a ^^^ b
  | .cmp => BitVec.ofInt 32 (unsigned a - unsigned b)
  | .cmn => BitVec.ofInt 32 (unsigned a + unsigned b)
  | .orr => a ||| b
  | .mov => b
  | .bic => a &&& ~~~b
  | .mvn => ~~~b

/-- The C an opcode commits: a carry out of bit 31, or no borrow, or the shifter's carry (R132 to R136). -/
def dataCarry (op : DpOp) (a b : Word) (cin shifterCarry : Bool) : Bool :=
  match op with
  | .sub | .cmp => decide (0 ≤ unsigned a - unsigned b)
  | .rsb => decide (0 ≤ unsigned b - unsigned a)
  | .add | .cmn => decide (2 ^ 32 ≤ unsigned a + unsigned b)
  | .adc => decide (2 ^ 32 ≤ unsigned a + unsigned b + bitValue cin)
  | .sbc => decide (0 ≤ unsigned a - unsigned b - (1 - bitValue cin))
  | .rsc => decide (0 ≤ unsigned b - unsigned a - (1 - bitValue cin))
  | .and | .eor | .tst | .teq | .orr | .mov | .bic | .mvn => shifterCarry

/-- The V an opcode commits: the exact signed result does not fit, or V as it was (R132 to R137). -/
def dataOverflow (op : DpOp) (a b : Word) (cin old : Bool) : Bool :=
  match op with
  | .sub | .cmp => overflows (a.toInt - b.toInt)
  | .rsb => overflows (b.toInt - a.toInt)
  | .add | .cmn => overflows (a.toInt + b.toInt)
  | .adc => overflows (a.toInt + b.toInt + bitValue cin)
  | .sbc => overflows (a.toInt - b.toInt - (1 - bitValue cin))
  | .rsc => overflows (b.toInt - a.toInt - (1 - bitValue cin))
  | .and | .eor | .tst | .teq | .orr | .mov | .bic | .mvn => old

/-- `v` is the register value of a load of this kind from `a` (R70): the bytes it is made of, by their addresses. -/
def Loaded (k : LoadKind) (s : State) (a v : Word) : Prop :=
  match k with
  | .word => ∀ j, j < 4 →
      v.extractLsb' (8 * j) 8 = s.mem.read8 (wordAddr a + BitVec.ofNat 32 ((j + a.toNat) % 4))
  | .byte => v = (s.mem.read8 a).setWidth 32
  | .half =>
      if a.toNat % 2 = 0 then v = BitVec.setWidth 32 (s.mem.read8 (a + 1) ++ s.mem.read8 a)
      else v = s.mem.read8 (a - 1) ++ 0#16 ++ s.mem.read8 a
  | .sbyte => v.toInt = (s.mem.read8 a).toInt
  | .shalf =>
      if a.toNat % 2 = 0 then v.toInt = (s.mem.read8 (a + 1) ++ s.mem.read8 a).toInt
      else v.toInt = (s.mem.read8 a).toInt

/-- The width of the one bus read a load makes (R72). -/
def loadWidth (k : LoadKind) (a : Word) : Width :=
  match k with
  | .word => .word
  | .byte => .byte
  | .half => .half
  | .sbyte => .byte
  | .shalf => if a.toNat % 2 = 0 then .half else .byte

/-- What is stored for r15 (R245, R288). -/
def storedPc (s : State) : Word :=
  match s.cfg.storePcBias with
  | .eight => s.now.ia + 8
  | .twelve => s.now.ia + 12

/-- What is stored for a register. -/
def storedReg (s : State) (i : Reg) : Word := if i = 15 then storedPc s else s.x i

/-! ## Families by operation and form -/

/-- The 48 data-processing instructions: opcode and operand 2 name the constructor. The S bit of TST, TEQ, CMP and CMN is
always 1 (R98), so `sb` is not used for them. -/
def dataInstr (op : DpOp) (c : Cond) (sb : Bool) (rn rd : Reg) (o : Operand2) : Instr :=
  match op, o with
  | .and, .imm rot imm8 => .andImm c sb rn rd rot imm8
  | .and, .shImm amount ty rm => .andShImm c sb rn rd amount ty rm
  | .and, .shReg rs ty rm => .andShReg c sb rn rd rs ty rm
  | .eor, .imm rot imm8 => .eorImm c sb rn rd rot imm8
  | .eor, .shImm amount ty rm => .eorShImm c sb rn rd amount ty rm
  | .eor, .shReg rs ty rm => .eorShReg c sb rn rd rs ty rm
  | .sub, .imm rot imm8 => .subImm c sb rn rd rot imm8
  | .sub, .shImm amount ty rm => .subShImm c sb rn rd amount ty rm
  | .sub, .shReg rs ty rm => .subShReg c sb rn rd rs ty rm
  | .rsb, .imm rot imm8 => .rsbImm c sb rn rd rot imm8
  | .rsb, .shImm amount ty rm => .rsbShImm c sb rn rd amount ty rm
  | .rsb, .shReg rs ty rm => .rsbShReg c sb rn rd rs ty rm
  | .add, .imm rot imm8 => .addImm c sb rn rd rot imm8
  | .add, .shImm amount ty rm => .addShImm c sb rn rd amount ty rm
  | .add, .shReg rs ty rm => .addShReg c sb rn rd rs ty rm
  | .adc, .imm rot imm8 => .adcImm c sb rn rd rot imm8
  | .adc, .shImm amount ty rm => .adcShImm c sb rn rd amount ty rm
  | .adc, .shReg rs ty rm => .adcShReg c sb rn rd rs ty rm
  | .sbc, .imm rot imm8 => .sbcImm c sb rn rd rot imm8
  | .sbc, .shImm amount ty rm => .sbcShImm c sb rn rd amount ty rm
  | .sbc, .shReg rs ty rm => .sbcShReg c sb rn rd rs ty rm
  | .rsc, .imm rot imm8 => .rscImm c sb rn rd rot imm8
  | .rsc, .shImm amount ty rm => .rscShImm c sb rn rd amount ty rm
  | .rsc, .shReg rs ty rm => .rscShReg c sb rn rd rs ty rm
  | .tst, .imm rot imm8 => .tstImm c rn rd rot imm8
  | .tst, .shImm amount ty rm => .tstShImm c rn rd amount ty rm
  | .tst, .shReg rs ty rm => .tstShReg c rn rd rs ty rm
  | .teq, .imm rot imm8 => .teqImm c rn rd rot imm8
  | .teq, .shImm amount ty rm => .teqShImm c rn rd amount ty rm
  | .teq, .shReg rs ty rm => .teqShReg c rn rd rs ty rm
  | .cmp, .imm rot imm8 => .cmpImm c rn rd rot imm8
  | .cmp, .shImm amount ty rm => .cmpShImm c rn rd amount ty rm
  | .cmp, .shReg rs ty rm => .cmpShReg c rn rd rs ty rm
  | .cmn, .imm rot imm8 => .cmnImm c rn rd rot imm8
  | .cmn, .shImm amount ty rm => .cmnShImm c rn rd amount ty rm
  | .cmn, .shReg rs ty rm => .cmnShReg c rn rd rs ty rm
  | .orr, .imm rot imm8 => .orrImm c sb rn rd rot imm8
  | .orr, .shImm amount ty rm => .orrShImm c sb rn rd amount ty rm
  | .orr, .shReg rs ty rm => .orrShReg c sb rn rd rs ty rm
  | .mov, .imm rot imm8 => .movImm c sb rn rd rot imm8
  | .mov, .shImm amount ty rm => .movShImm c sb rn rd amount ty rm
  | .mov, .shReg rs ty rm => .movShReg c sb rn rd rs ty rm
  | .bic, .imm rot imm8 => .bicImm c sb rn rd rot imm8
  | .bic, .shImm amount ty rm => .bicShImm c sb rn rd amount ty rm
  | .bic, .shReg rs ty rm => .bicShReg c sb rn rd rs ty rm
  | .mvn, .imm rot imm8 => .mvnImm c sb rn rd rot imm8
  | .mvn, .shImm amount ty rm => .mvnShImm c sb rn rd amount ty rm
  | .mvn, .shReg rs ty rm => .mvnShReg c sb rn rd rs ty rm

/-- UMULL, UMLAL, SMULL and SMLAL (R101). -/
def longInstr (signed acc : Bool) (c : Cond) (sb : Bool) (rdHi rdLo rs rm : Reg) : Instr :=
  match signed, acc with
  | false, false => .umull c sb rdHi rdLo rs rm
  | false, true => .umlal c sb rdHi rdLo rs rm
  | true, false => .smull c sb rdHi rdLo rs rm
  | true, true => .smlal c sb rdHi rdLo rs rm

/-- What the long multiplies compute before it is cut to 64 bits (R205 to R209). -/
def longProduct (signed acc : Bool) (m n hi lo : Word) : Int :=
  (if signed then m.toInt * n.toInt else unsigned m * unsigned n) +
    (if acc then unsigned hi * 2 ^ 32 + unsigned lo else 0)

/-- A register read of THUMB form 5 (R352). -/
def formFiveReg (s : State) (i : Reg) : Word :=
  if i = 15 then (if s.cfg.thumbHiregPcAlign then (s.now.ia + 4) &&& ~~~2#32 else s.now.ia + 4) else s.x i

/-- The offset of a word or byte transfer (R241, R242). -/
inductive WordOffset where
  | imm (imm12 : BitVec 12)
  | reg (amount : BitVec 5) (ty : ShiftType) (rm : Reg)
deriving DecidableEq, Repr

/-- The offset in the model's terms. -/
def WordOffset.offset : WordOffset → Offset
  | .imm imm12 => .imm12 imm12
  | .reg amount ty rm => .shifted amount ty rm

/-- LDR, LDRB, LDRT and LDRBT in their twelve forms: P = 0 with W = 1 is the T variant (R103, R250). -/
def loadInstr (byte : Bool) (c : Cond) (ix : Indexing) (rn rd : Reg) (o : WordOffset) : Instr :=
  match byte, ix.pre, ix.w, o with
  | false, true, w, .imm imm12 => .ldrImmPre c ix.up w rn rd imm12
  | false, false, false, .imm imm12 => .ldrImmPost c ix.up rn rd imm12
  | false, false, true, .imm imm12 => .ldrtImm c ix.up rn rd imm12
  | false, true, w, .reg amount ty rm => .ldrRegPre c ix.up w rn rd amount ty rm
  | false, false, false, .reg amount ty rm => .ldrRegPost c ix.up rn rd amount ty rm
  | false, false, true, .reg amount ty rm => .ldrtReg c ix.up rn rd amount ty rm
  | true, true, w, .imm imm12 => .ldrbImmPre c ix.up w rn rd imm12
  | true, false, false, .imm imm12 => .ldrbImmPost c ix.up rn rd imm12
  | true, false, true, .imm imm12 => .ldrbtImm c ix.up rn rd imm12
  | true, true, w, .reg amount ty rm => .ldrbRegPre c ix.up w rn rd amount ty rm
  | true, false, false, .reg amount ty rm => .ldrbRegPost c ix.up rn rd amount ty rm
  | true, false, true, .reg amount ty rm => .ldrbtReg c ix.up rn rd amount ty rm

/-- STR, STRB, STRT and STRBT in their twelve forms (R103, R250). -/
def storeInstr (byte : Bool) (c : Cond) (ix : Indexing) (rn rd : Reg) (o : WordOffset) : Instr :=
  match byte, ix.pre, ix.w, o with
  | false, true, w, .imm imm12 => .strImmPre c ix.up w rn rd imm12
  | false, false, false, .imm imm12 => .strImmPost c ix.up rn rd imm12
  | false, false, true, .imm imm12 => .strtImm c ix.up rn rd imm12
  | false, true, w, .reg amount ty rm => .strRegPre c ix.up w rn rd amount ty rm
  | false, false, false, .reg amount ty rm => .strRegPost c ix.up rn rd amount ty rm
  | false, false, true, .reg amount ty rm => .strtReg c ix.up rn rd amount ty rm
  | true, true, w, .imm imm12 => .strbImmPre c ix.up w rn rd imm12
  | true, false, false, .imm imm12 => .strbImmPost c ix.up rn rd imm12
  | true, false, true, .imm imm12 => .strbtImm c ix.up rn rd imm12
  | true, true, w, .reg amount ty rm => .strbRegPre c ix.up w rn rd amount ty rm
  | true, false, false, .reg amount ty rm => .strbRegPost c ix.up rn rd amount ty rm
  | true, false, true, .reg amount ty rm => .strbtReg c ix.up rn rd amount ty rm

/-- The offset of a halfword or signed transfer (R259). -/
inductive HalfOffset where
  | imm (imm8 : BitVec 8)
  | reg (rm : Reg)
deriving DecidableEq, Repr

/-- The offset in the model's terms. -/
def HalfOffset.offset : HalfOffset → Offset
  | .imm imm8 => .imm8 imm8
  | .reg rm => .plain rm

/-- The three loads of R104. -/
inductive HalfKind where
  | half
  | sbyte
  | shalf
deriving DecidableEq, Repr

/-- The kind in the model's terms. -/
def HalfKind.kind : HalfKind → LoadKind
  | .half => .half
  | .sbyte => .sbyte
  | .shalf => .shalf

/-- LDRH, LDRSB and LDRSH in both forms (R104). -/
def halfLoadInstr (k : HalfKind) (c : Cond) (ix : Indexing) (rn rd : Reg) (o : HalfOffset) : Instr :=
  match k, o with
  | .half, .imm imm8 => .ldrhImm c ix.pre ix.up ix.w rn rd imm8
  | .half, .reg rm => .ldrhReg c ix.pre ix.up ix.w rn rd rm
  | .sbyte, .imm imm8 => .ldrsbImm c ix.pre ix.up ix.w rn rd imm8
  | .sbyte, .reg rm => .ldrsbReg c ix.pre ix.up ix.w rn rd rm
  | .shalf, .imm imm8 => .ldrshImm c ix.pre ix.up ix.w rn rd imm8
  | .shalf, .reg rm => .ldrshReg c ix.pre ix.up ix.w rn rd rm

/-- STRH in both forms (R104). -/
def halfStoreInstr (c : Cond) (ix : Indexing) (rn rd : Reg) (o : HalfOffset) : Instr :=
  match o with
  | .imm imm8 => .strhImm c ix.pre ix.up ix.w rn rd imm8
  | .reg rm => .strhReg c ix.pre ix.up ix.w rn rd rm

/-- The cells a transfer's writeback may touch. -/
def writtenBase (s : State) (ix : Indexing) (rn : Reg) : List Cell :=
  if ix.writesBack then [cell s.mode rn] else []

/-- The condition an instruction is executed under; THUMB instructions have none (R91, R320). -/
def condition : Instr → Cond
  | .andImm c _ _ _ _ _ => c
  | .andShImm c _ _ _ _ _ _ => c
  | .andShReg c _ _ _ _ _ _ => c
  | .eorImm c _ _ _ _ _ => c
  | .eorShImm c _ _ _ _ _ _ => c
  | .eorShReg c _ _ _ _ _ _ => c
  | .subImm c _ _ _ _ _ => c
  | .subShImm c _ _ _ _ _ _ => c
  | .subShReg c _ _ _ _ _ _ => c
  | .rsbImm c _ _ _ _ _ => c
  | .rsbShImm c _ _ _ _ _ _ => c
  | .rsbShReg c _ _ _ _ _ _ => c
  | .addImm c _ _ _ _ _ => c
  | .addShImm c _ _ _ _ _ _ => c
  | .addShReg c _ _ _ _ _ _ => c
  | .adcImm c _ _ _ _ _ => c
  | .adcShImm c _ _ _ _ _ _ => c
  | .adcShReg c _ _ _ _ _ _ => c
  | .sbcImm c _ _ _ _ _ => c
  | .sbcShImm c _ _ _ _ _ _ => c
  | .sbcShReg c _ _ _ _ _ _ => c
  | .rscImm c _ _ _ _ _ => c
  | .rscShImm c _ _ _ _ _ _ => c
  | .rscShReg c _ _ _ _ _ _ => c
  | .tstImm c _ _ _ _ => c
  | .tstShImm c _ _ _ _ _ => c
  | .tstShReg c _ _ _ _ _ => c
  | .teqImm c _ _ _ _ => c
  | .teqShImm c _ _ _ _ _ => c
  | .teqShReg c _ _ _ _ _ => c
  | .cmpImm c _ _ _ _ => c
  | .cmpShImm c _ _ _ _ _ => c
  | .cmpShReg c _ _ _ _ _ => c
  | .cmnImm c _ _ _ _ => c
  | .cmnShImm c _ _ _ _ _ => c
  | .cmnShReg c _ _ _ _ _ => c
  | .orrImm c _ _ _ _ _ => c
  | .orrShImm c _ _ _ _ _ _ => c
  | .orrShReg c _ _ _ _ _ _ => c
  | .movImm c _ _ _ _ _ => c
  | .movShImm c _ _ _ _ _ _ => c
  | .movShReg c _ _ _ _ _ _ => c
  | .bicImm c _ _ _ _ _ => c
  | .bicShImm c _ _ _ _ _ _ => c
  | .bicShReg c _ _ _ _ _ _ => c
  | .mvnImm c _ _ _ _ _ => c
  | .mvnShImm c _ _ _ _ _ _ => c
  | .mvnShReg c _ _ _ _ _ _ => c
  | .mul c _ _ _ _ _ => c
  | .mla c _ _ _ _ _ => c
  | .umull c _ _ _ _ _ => c
  | .umlal c _ _ _ _ _ => c
  | .smull c _ _ _ _ _ => c
  | .smlal c _ _ _ _ _ => c
  | .mrs c _ _ => c
  | .msrReg c _ _ _ => c
  | .msrImm c _ _ _ _ => c
  | .ldrImmPre c _ _ _ _ _ => c
  | .ldrImmPost c _ _ _ _ => c
  | .ldrtImm c _ _ _ _ => c
  | .ldrRegPre c _ _ _ _ _ _ _ => c
  | .ldrRegPost c _ _ _ _ _ _ => c
  | .ldrtReg c _ _ _ _ _ _ => c
  | .strImmPre c _ _ _ _ _ => c
  | .strImmPost c _ _ _ _ => c
  | .strtImm c _ _ _ _ => c
  | .strRegPre c _ _ _ _ _ _ _ => c
  | .strRegPost c _ _ _ _ _ _ => c
  | .strtReg c _ _ _ _ _ _ => c
  | .ldrbImmPre c _ _ _ _ _ => c
  | .ldrbImmPost c _ _ _ _ => c
  | .ldrbtImm c _ _ _ _ => c
  | .ldrbRegPre c _ _ _ _ _ _ _ => c
  | .ldrbRegPost c _ _ _ _ _ _ => c
  | .ldrbtReg c _ _ _ _ _ _ => c
  | .strbImmPre c _ _ _ _ _ => c
  | .strbImmPost c _ _ _ _ => c
  | .strbtImm c _ _ _ _ => c
  | .strbRegPre c _ _ _ _ _ _ _ => c
  | .strbRegPost c _ _ _ _ _ _ => c
  | .strbtReg c _ _ _ _ _ _ => c
  | .strhReg c _ _ _ _ _ _ => c
  | .strhImm c _ _ _ _ _ _ => c
  | .ldrhReg c _ _ _ _ _ _ => c
  | .ldrhImm c _ _ _ _ _ _ => c
  | .ldrsbReg c _ _ _ _ _ _ => c
  | .ldrsbImm c _ _ _ _ _ _ => c
  | .ldrshReg c _ _ _ _ _ _ => c
  | .ldrshImm c _ _ _ _ _ _ => c
  | .swp c _ _ _ => c
  | .swpb c _ _ _ => c
  | .ldm c _ _ _ _ _ => c
  | .ldmUser c _ _ _ _ _ => c
  | .ldmRestore c _ _ _ _ _ => c
  | .stm c _ _ _ _ _ => c
  | .stmUser c _ _ _ _ _ => c
  | .b c _ => c
  | .bl c _ => c
  | .bx c _ => c
  | .blx c _ => c
  | .swi c _ => c
  | .undefinedPattern c => c
  | _ => .al

/-! ## Block transfers -/

/-- How many registers below `i` are listed: the place of `i` in the list (R281). -/
def place (list : BitVec 16) (i : Reg) : Nat :=
  ((List.finRange 16).filter fun j => j < i && list.getLsbD j.val).length

/-- How many registers are listed. -/
def listSize (list : BitVec 16) : Nat := ((List.finRange 16).filter fun j => list.getLsbD j.val).length

/-- A block transfer: its condition, its addressing mode, writeback, base and list. -/
structure Block where
  c : Cond
  p : Bool
  up : Bool
  w : Bool
  rn : Reg
  list : BitVec 16
deriving DecidableEq, Repr

/-- The start address of the table of R281. -/
def Block.start (k : Block) (base : Word) : Word :=
  match k.p, k.up with
  | false, true => base
  | true, true => base + 4
  | false, false => base - BitVec.ofNat 32 (4 * listSize k.list) + 4
  | true, false => base - BitVec.ofNat 32 (4 * listSize k.list)

/-- The value written back, by the table of R281. -/
def Block.final (k : Block) (base : Word) : Word :=
  if k.up then base + BitVec.ofNat 32 (4 * listSize k.list) else base - BitVec.ofNat 32 (4 * listSize k.list)

/-- The address of the n-th register transferred (R281). -/
def Block.addr (k : Block) (s : State) (n : Nat) : Word := k.start (s.x k.rn) + BitVec.ofNat 32 (4 * n)

/-- The cells of the listed registers in a view, r15 among them when listed. -/
def Block.cells (k : Block) (view : Mode) : List Cell :=
  ((List.finRange 16).filter fun i => k.list.getLsbD i.val).map (cell view)

/-- The base's cell, when it is written back. -/
def Block.baseCell (k : Block) (s : State) : List Cell := if k.w then [cell s.mode k.rn] else []

/-- The one read per listed register, upward (R282). -/
def Block.reads (k : Block) (s : State) : List BusCall :=
  (List.range (listSize k.list)).map fun n => .read .word (k.addr s n)

/-- The list of a PUSH: bit 14 for r14 (R395). -/
def pushed (r : Bool) (rlist : BitVec 8) : BitVec 16 := 0#1 ++ BitVec.ofBool r ++ 0#6 ++ rlist

/-- The list of a POP: bit 15 for r15 (R395). -/
def popped (r : Bool) (rlist : BitVec 8) : BitVec 16 := BitVec.ofBool r ++ 0#7 ++ rlist

/-- LDM with S = 0, POP and the THUMB LDMIA as block transfers (R284, R397, R402). -/
def IsBlockLoad (i : Instr) (k : Block) : Prop :=
  i = .ldm k.c k.p k.up k.w k.rn k.list ∨
  (∃ r rlist, i = .tPop r rlist ∧ k = ⟨.al, false, true, true, 13, popped r rlist⟩) ∨
  (∃ rb rlist, i = .tLdmia rb rlist ∧ k = ⟨.al, false, true, true, lowReg rb, BitVec.setWidth 16 rlist⟩)

/-- STM with S = 0, PUSH and the THUMB STMIA as block transfers (R286, R396, R401). -/
def IsBlockStore (i : Instr) (k : Block) : Prop :=
  i = .stm k.c k.p k.up k.w k.rn k.list ∨
  (∃ r rlist, i = .tPush r rlist ∧ k = ⟨.al, true, false, true, 13, pushed r rlist⟩) ∨
  (∃ rb rlist, i = .tStmia rb rlist ∧ k = ⟨.al, false, true, true, lowReg rb, BitVec.setWidth 16 rlist⟩)

/-- The value a block store writes for a listed register (R286, R289): r15 with the bias, the modified base where the base
is written back and is not the lowest listed, else the register in the view. -/
def blockStored (k : Block) (s : State) (view : Mode) (i : Reg) : Word :=
  if i = 15 then storedPc s
  else if i = k.rn ∧ k.w = true ∧ place k.list i ≠ 0 then k.final (s.x k.rn)
  else s.getCell (cell view i)

/-- Memory after a block store, and its bus calls: every listed register's word at its address, every other byte as
before, and one write per listed register, upward (R282, R283). -/
def BlockStored (k : Block) (s t : State) (view : Mode) (calls : List BusCall) : Prop :=
  (∀ i : Reg, k.list.getLsbD i.val = true → ∀ j, j < 4 →
    t.mem.read8 (wordAddr (k.addr s (place k.list i)) + BitVec.ofNat 32 j) =
      (blockStored k s view i).extractLsb' (8 * j) 8) ∧
  (∀ b, (∀ n, n < listSize k.list → ¬Stored .word (k.addr s n) b) → t.mem.read8 b = s.mem.read8 b) ∧
  calls.length = listSize k.list ∧
  ∀ i : Reg, k.list.getLsbD i.val = true →
    calls[place k.list i]? = some (.write .word (wordAddr (k.addr s (place k.list i))) (blockStored k s view i))

/-! ## Exceptions -/

/-- The effects of taking an exception (R459): the mode, its SPSR and r14, I set and T cleared, r15 at the vector; N, Z, C,
V, F, every other cell and SPSR and all of memory as they were. -/
structure Entered (s t : State) (m : Mode) (ret vec : Word) : Prop where
  flags : SameFlags s t
  control : t.cpsr.i = true ∧ t.cpsr.f = s.cpsr.f ∧ t.cpsr.t = false ∧ t.cpsr.m = m
  saved : t.spsrs.get? m = some s.cpsr.toSpsr
  otherSaved : ∀ m', m' ≠ m → t.spsrs.get? m' = s.spsrs.get? m'
  link : t.getCell (cell m 14) = ret
  pc : t.pc = vec
  cells : ∀ c, c ≠ cell m 14 → c ≠ .gen 15 → t.getCell c = s.getCell c
  memory : t.mem = s.mem
  inputs : t.irq = s.irq ∧ t.cfg = s.cfg

/-- `M[4:0]` of each mode as a number, by the table of R31. -/
def modeNumber : Mode → Nat
  | .user => 0x10
  | .fiq => 0x11
  | .irq => 0x12
  | .supervisor => 0x13
  | .abort => 0x17
  | .undefined => 0x1B
  | .system => 0x1F

/-- The seven recognised values of `M[4:0]` (R31); the other 25 are refused in the CPSR (R229). -/
def modeNumbers : List Nat := [0x10, 0x11, 0x12, 0x13, 0x17, 0x1B, 0x1F]

/-- `CPSR ← SPSR` has a meaning here: the mode has no SPSR, or its SPSR holds a recognised mode (R229). -/
def Restorable (s : State) : Prop := ∀ p, s.spsrs.get? s.cpsr.m = some p → p.m.toNat ∈ modeNumbers

/-- The CPSR after `CPSR ← SPSR`: the mode's SPSR, or unchanged where the mode has none (R35, R164). -/
def RestoredCpsr (s t : State) : Prop :=
  (∀ p, s.spsrs.get? s.cpsr.m = some p → t.cpsr.toSpsr = p) ∧ (s.spsrs.get? s.cpsr.m = none → t.cpsr = s.cpsr)

/-! ## The step -/

/-- An IRQ is taken at the top of this step (R450, R451). -/
def IrqDue (s : State) : Prop := s.irq.ime = true ∧ s.irq.ie &&& s.irq.iff ≠ 0 ∧ s.cpsr.i = false

/-- The word the step decodes: the slot's, 16 bits of it in THUMB state (R432). -/
def slotWord (s : State) : Code := if s.cpsr.t then .thumb (s.slot.word.setWidth 16) else .arm s.slot.word

/-- `b` is `s` with the step-local values set and r15 past the instruction (R432, R433). -/
structure Begun (s b : State) : Prop where
  pc : b.pc = s.pc + (if s.cpsr.t then 2 else 4)
  cells : ∀ c, c ≠ .gen 15 → b.getCell c = s.getCell c
  now : b.now = { ia := s.pc, branched := false, calls := [] }
  rest : b.cpsr = s.cpsr ∧ b.spsrs = s.spsrs ∧ b.slot = s.slot ∧ b.mem = s.mem ∧ b.irq = s.irq ∧ b.cfg = s.cfg

/-- `u` is `t` with the slot filled again by a fetch at r15, of the width CPSR.T selects, a branch fetch exactly when the
step branched (R436, R437). -/
structure Refilled (t u : State) : Prop where
  addr : u.slot.addr = t.pc
  word : u.slot.word = if t.cpsr.t then (t.mem.read16 t.pc).setWidth 32 else t.mem.read32 t.pc
  calls : u.now.calls = t.now.calls ++
    [.fetch (if t.cpsr.t then .half else .word) t.pc (if t.now.branched then .branch else .sequential)]
  rest : u.regs = t.regs ∧ u.cpsr = t.cpsr ∧ u.spsrs = t.spsrs ∧ u.mem = t.mem ∧ u.irq = t.irq ∧ u.cfg = t.cfg ∧
    u.now.ia = t.now.ia ∧ u.now.branched = t.now.branched

/-- What the undefined pattern and every unallocated word do, by `UND_POLICY` (R308, R309, R425, R458). -/
def UndefinedTaken (s : State) (answer : Answer) : Prop :=
  (s.cfg.undPolicy = .trap → ∃ t, answer = .next t ∧
    Entered s t .undefined (s.now.ia + (if s.cpsr.t then 2 else 4)) 0x00000004 ∧
    t.slot = s.slot ∧ t.now = { s.now with branched := true }) ∧
  (s.cfg.undPolicy = .nop → answer = .next s)

/-- The unallocated ARM spaces by their conditions on the word (R112). -/
def InSpace (sp : ArmSpace) (w : Word) : Prop :=
  match sp with
  | .x1 => w.extractLsb' 25 3 = 0b110
  | .x2 => w.extractLsb' 24 4 = 0b1110
  | .x3 => w.extractLsb' 23 5 = 0b00110 ∧ w.extractLsb' 20 2 = 0b00
  | .x4 => w.extractLsb' 23 5 = 0b00010 ∧ w.getLsbD 20 = false ∧ ¬(w.getLsbD 7 = true ∧ w.getLsbD 4 = true) ∧
      w.extractLsb' 4 24 ≠ 0x12FFF1 ∧ w.extractLsb' 4 24 ≠ 0x12FFF3 ∧
      ¬(w.extractLsb' 20 2 = 0b00 ∧ w.extractLsb' 4 8 = 0) ∧ ¬(w.extractLsb' 20 2 = 0b10 ∧ w.extractLsb' 4 8 = 0)
  | .x5 => w.extractLsb' 25 3 = 0b000 ∧ w.extractLsb' 4 4 = 0b1001 ∧ (w.extractLsb' 22 6 = 0b000001 ∨
      w.extractLsb' 24 4 = 0b0001 ∧
        (w.getLsbD 23 = true ∨ w.extractLsb' 20 2 ≠ 0b00 ∨ w.extractLsb' 8 4 ≠ 0b0000))
  | .x6 => w.extractLsb' 25 3 = 0b000 ∧ w.getLsbD 20 = false ∧ w.extractLsb' 6 2 = 0b11 ∧ w.getLsbD 4 = true

/-! ## What the state must allow -/

/-- An MSR of this value has a meaning: an SPSR is written only in a mode that has one (R221), and CPSR.M only with a
recognised mode, one of the seven of R31 (R229). -/
def MsrAllowed (s : State) (spsr : Bool) (mask : BitVec 4) (v : Word) : Prop :=
  if spsr then s.cpsr.m ≠ .user ∧ s.cpsr.m ≠ .system
  else s.cpsr.m = .user ∨ mask.getLsbD 0 = false ∨ (v.extractLsb' 0 5).toNat ∈ modeNumbers

/-- What an instruction asks of the state beyond being well-formed: that an MSR is allowed, and that a restore of the CPSR
finds a recognised mode. -/
def StateAllows (i : Instr) (s : State) : Prop :=
  (∀ c ps mask rm, i = .msrReg c ps mask rm → MsrAllowed s ps mask (s.x rm)) ∧
  (∀ c ps mask rot imm8, i = .msrImm c ps mask rot imm8 → MsrAllowed s ps mask (rotatedImm rot imm8)) ∧
  (∀ c p up w rn list, i = .ldmRestore c p up w rn list → Restorable s) ∧
  (∀ op c rn rd o, i = dataInstr op c true rn rd o → rd = 15 → Restorable s)

/-- The refusal of an ill-formed instruction. -/
def refusalOf : Defect → Refusal
  | .restrictedMultiply => .restrictedMultiply
  | .forbiddenR15 => .forbiddenR15
  | .halfwordPostIndexedW => .halfwordPostIndexedW
  | .emptyRegisterList => .emptyRegisterList
  | .userBankWriteback => .userBankWriteback

end Sys2Proof.Claims
end

