-- ==== Sys2Proof/SpecWords.lean ====
section
/-! DEFINITION. Words written out from the formats of spec/30_encoding.md (R98 to R121), at least one for every row of
spec/opcode_table.json, each beside the instruction it stands for. Where a row has several one-bit fields, its words tell
them apart. The statement about decoding and the tests use them. -/

namespace Sys2Proof.Claims

/-- cond, 00, I, opcode, S, Rn, Rd, operand 2 (R98, R99). -/
def armData1Words : List (Word × Instr) := [
    (0xE2012345, .andImm .al false 1 2 3 0x45),
    (0xE0012284, .andShImm .al false 1 2 5 .lsl 4),
    (0xE0012334, .andShReg .al false 1 2 3 .lsr 4),
    (0xE2312345, .eorImm .al true 1 2 3 0x45),
    (0xE03122A4, .eorShImm .al true 1 2 5 .lsr 4),
    (0xE0312354, .eorShReg .al true 1 2 3 .asr 4),
    (0xE2412345, .subImm .al false 1 2 3 0x45),
    (0xE04122C4, .subShImm .al false 1 2 5 .asr 4),
    (0xE0412374, .subShReg .al false 1 2 3 .ror 4),
    (0xE2712345, .rsbImm .al true 1 2 3 0x45),
    (0xE07122E4, .rsbShImm .al true 1 2 5 .ror 4),
    (0xE0712314, .rsbShReg .al true 1 2 3 .lsl 4)]

/-- cond, 00, I, opcode, S, Rn, Rd, operand 2 (R98, R99). -/
def armData2Words : List (Word × Instr) := [
    (0xE2812345, .addImm .al false 1 2 3 0x45),
    (0xE0812284, .addShImm .al false 1 2 5 .lsl 4),
    (0xE0812334, .addShReg .al false 1 2 3 .lsr 4),
    (0xE2B12345, .adcImm .al true 1 2 3 0x45),
    (0xE0B122A4, .adcShImm .al true 1 2 5 .lsr 4),
    (0xE0B12354, .adcShReg .al true 1 2 3 .asr 4),
    (0xE2C12345, .sbcImm .al false 1 2 3 0x45),
    (0xE0C122C4, .sbcShImm .al false 1 2 5 .asr 4),
    (0xE0C12374, .sbcShReg .al false 1 2 3 .ror 4),
    (0xE2F12345, .rscImm .al true 1 2 3 0x45),
    (0xE0F122E4, .rscShImm .al true 1 2 5 .ror 4),
    (0xE0F12314, .rscShReg .al true 1 2 3 .lsl 4)]

/-- cond, 00, I, opcode, S, Rn, Rd, operand 2 (R98, R99). -/
def armData3Words : List (Word × Instr) := [
    (0xE3112345, .tstImm .al 1 2 3 0x45),
    (0xE1112284, .tstShImm .al 1 2 5 .lsl 4),
    (0xE1112334, .tstShReg .al 1 2 3 .lsr 4),
    (0xE3312345, .teqImm .al 1 2 3 0x45),
    (0xE13122A4, .teqShImm .al 1 2 5 .lsr 4),
    (0xE1312354, .teqShReg .al 1 2 3 .asr 4),
    (0xE3512345, .cmpImm .al 1 2 3 0x45),
    (0xE15122C4, .cmpShImm .al 1 2 5 .asr 4),
    (0xE1512374, .cmpShReg .al 1 2 3 .ror 4),
    (0xE3712345, .cmnImm .al 1 2 3 0x45),
    (0xE17122E4, .cmnShImm .al 1 2 5 .ror 4),
    (0xE1712314, .cmnShReg .al 1 2 3 .lsl 4)]

/-- cond, 00, I, opcode, S, Rn, Rd, operand 2 (R98, R99). -/
def armData4Words : List (Word × Instr) := [
    (0xE3812345, .orrImm .al false 1 2 3 0x45),
    (0xE1812284, .orrShImm .al false 1 2 5 .lsl 4),
    (0xE1812334, .orrShReg .al false 1 2 3 .lsr 4),
    (0xE3B12345, .movImm .al true 1 2 3 0x45),
    (0xE1B122A4, .movShImm .al true 1 2 5 .lsr 4),
    (0xE1B12354, .movShReg .al true 1 2 3 .asr 4),
    (0xE3C12345, .bicImm .al false 1 2 3 0x45),
    (0xE1C122C4, .bicShImm .al false 1 2 5 .asr 4),
    (0xE1C12374, .bicShReg .al false 1 2 3 .ror 4),
    (0xE3F12345, .mvnImm .al true 1 2 3 0x45),
    (0xE1F122E4, .mvnShImm .al true 1 2 5 .ror 4),
    (0xE1F12314, .mvnShReg .al true 1 2 3 .lsl 4)]

/-- Rd in bits 19:16, Rs in 11:8, Rm in 3:0 (R100, R101). -/
def armMultiplyWords : List (Word × Instr) := [
    (0xE0112394, .mul .al true 1 2 3 4),
    (0xE0212394, .mla .al false 1 2 3 4),
    (0xE0912394, .umull .al true 1 2 3 4),
    (0xE0B12394, .umlal .al true 1 2 3 4),
    (0xE0D12394, .smull .al true 1 2 3 4),
    (0xE0F12394, .smlal .al true 1 2 3 4)]

/-- MRS and both MSR (R102). -/
def armPsrWords : List (Word × Instr) := [
    (0xE14F2000, .mrs .al true 2),
    (0xE128F004, .msrReg .al false 8 4),
    (0xE361F245, .msrImm .al true 1 2 0x45)]

/-- cond, 01, I, P, U, B, W, L, Rn, Rd, offset (R103). -/
def armTransferWordWords : List (Word × Instr) := [
    (0xE5912345, .ldrImmPre .al true false 1 2 0x345),
    (0xE4112345, .ldrImmPost .al false 1 2 0x345),
    (0xE4B12345, .ldrtImm .al true 1 2 0x345),
    (0xE73122A4, .ldrRegPre .al false true 1 2 5 .lsr 4),
    (0xE69122C4, .ldrRegPost .al true 1 2 5 .asr 4),
    (0xE63122E4, .ldrtReg .al false 1 2 5 .ror 4),
    (0xE5812345, .strImmPre .al true false 1 2 0x345),
    (0xE4012345, .strImmPost .al false 1 2 0x345),
    (0xE4A12345, .strtImm .al true 1 2 0x345),
    (0xE72122A4, .strRegPre .al false true 1 2 5 .lsr 4),
    (0xE68122C4, .strRegPost .al true 1 2 5 .asr 4),
    (0xE62122E4, .strtReg .al false 1 2 5 .ror 4)]

/-- cond, 01, I, P, U, B, W, L, Rn, Rd, offset (R103). -/
def armTransferByteWords : List (Word × Instr) := [
    (0xE5D12345, .ldrbImmPre .al true false 1 2 0x345),
    (0xE4512345, .ldrbImmPost .al false 1 2 0x345),
    (0xE4F12345, .ldrbtImm .al true 1 2 0x345),
    (0xE77122A4, .ldrbRegPre .al false true 1 2 5 .lsr 4),
    (0xE6D122C4, .ldrbRegPost .al true 1 2 5 .asr 4),
    (0xE67122E4, .ldrbtReg .al false 1 2 5 .ror 4),
    (0xE5C12345, .strbImmPre .al true false 1 2 0x345),
    (0xE4412345, .strbImmPost .al false 1 2 0x345),
    (0xE4E12345, .strbtImm .al true 1 2 0x345),
    (0xE76122A4, .strbRegPre .al false true 1 2 5 .lsr 4),
    (0xE6C122C4, .strbRegPost .al true 1 2 5 .asr 4),
    (0xE66122E4, .strbtReg .al false 1 2 5 .ror 4)]

/-- cond, 000, P, U, I, W, L, Rn, Rd, offset high, 1 S H 1, offset low (R104); swap (R105). -/
def armHalfwordSwapWords : List (Word × Instr) := [
    (0xE10120B4, .strhReg .al true false false 1 2 4),
    (0xE14123B4, .strhImm .al true false false 1 2 0x34),
    (0xE08120B4, .strhReg .al false true false 1 2 4),
    (0xE0C123B4, .strhImm .al false true false 1 2 0x34),
    (0xE11120B4, .ldrhReg .al true false false 1 2 4),
    (0xE15123B4, .ldrhImm .al true false false 1 2 0x34),
    (0xE09120B4, .ldrhReg .al false true false 1 2 4),
    (0xE0D123B4, .ldrhImm .al false true false 1 2 0x34),
    (0xE11120D4, .ldrsbReg .al true false false 1 2 4),
    (0xE15123D4, .ldrsbImm .al true false false 1 2 0x34),
    (0xE09120D4, .ldrsbReg .al false true false 1 2 4),
    (0xE0D123D4, .ldrsbImm .al false true false 1 2 0x34),
    (0xE11120F4, .ldrshReg .al true false false 1 2 4),
    (0xE15123F4, .ldrshImm .al true false false 1 2 0x34),
    (0xE09120F4, .ldrshReg .al false true false 1 2 4),
    (0xE0D123F4, .ldrshImm .al false true false 1 2 0x34),
    (0xE1012094, .swp .al 1 2 4),
    (0xE1412094, .swpb .al 1 2 4)]

/-- cond, 100, P, U, S, W, L, Rn, list (R106). -/
def armBlockWords : List (Word × Instr) := [
    (0xE9118006, .ldm .al true false false 1 0x8006),
    (0xE9516006, .ldmUser .al true false false 1 0x6006),
    (0xE9518006, .ldmRestore .al true false false 1 0x0006),
    (0xE9014006, .stm .al true false false 1 0x4006),
    (0xE9418006, .stmUser .al true false false 1 0x8006),
    (0xE8918006, .ldm .al false true false 1 0x8006),
    (0xE8D16006, .ldmUser .al false true false 1 0x6006),
    (0xE8D18006, .ldmRestore .al false true false 1 0x0006),
    (0xE8814006, .stm .al false true false 1 0x4006),
    (0xE8C18006, .stmUser .al false true false 1 0x8006)]

/-- B, BL, BX, BLX, SWI and the undefined pattern (R107 to R110). -/
def armBranchWords : List (Word × Instr) := [
    (0x0AFFFFFE, .b .eq 0xFFFFFE),
    (0xBB000012, .bl .lt 0x12),
    (0x812FFF14, .bx .hi 4),
    (0xD12FFF34, .blx .le 4),
    (0xCF123456, .swi .gt 0x123456),
    (0x461F0010, .undefinedPattern .mi)]

/-- Forms 1 to 3 (R114). -/
def thumb1Words : List (Half × Instr) := [
    (0x014A, .tLslImm 5 1 2),
    (0x094A, .tLsrImm 5 1 2),
    (0x114A, .tAsrImm 5 1 2),
    (0x18CA, .tAddReg 3 1 2),
    (0x1ACA, .tSubReg 3 1 2),
    (0x1CCA, .tAddImm3 3 1 2),
    (0x1ECA, .tSubImm3 3 1 2),
    (0x2245, .tMovImm 2 0x45),
    (0x2A45, .tCmpImm 2 0x45),
    (0x3245, .tAddImm 2 0x45),
    (0x3A45, .tSubImm 2 0x45)]

/-- Forms 4 and 5: the destination is H1 and Rd, the source H2 and Rs (R115). -/
def thumb4Words : List (Half × Instr) := [
    (0x400A, .tAnd 1 2),
    (0x404A, .tEor 1 2),
    (0x408A, .tLslReg 1 2),
    (0x40CA, .tLsrReg 1 2),
    (0x410A, .tAsrReg 1 2),
    (0x414A, .tAdc 1 2),
    (0x418A, .tSbc 1 2),
    (0x41CA, .tRorReg 1 2),
    (0x420A, .tTst 1 2),
    (0x424A, .tNeg 1 2),
    (0x428A, .tCmpReg 1 2),
    (0x42CA, .tCmn 1 2),
    (0x430A, .tOrr 1 2),
    (0x434A, .tMul 1 2),
    (0x438A, .tBic 1 2),
    (0x43CA, .tMvn 1 2),
    (0x449A, .tAddHi 10 3),
    (0x459A, .tCmpHi 10 3),
    (0x469A, .tMovHi 10 3),
    (0x4758, .tBx 11)]

/-- Forms 6 to 11 (R116, R117). -/
def thumb6Words : List (Half × Instr) := [
    (0x4A45, .tLdrPc 2 0x45),
    (0x50CA, .tStrReg 3 1 2),
    (0x54CA, .tStrbReg 3 1 2),
    (0x58CA, .tLdrReg 3 1 2),
    (0x5CCA, .tLdrbReg 3 1 2),
    (0x52CA, .tStrhReg 3 1 2),
    (0x5ACA, .tLdrhReg 3 1 2),
    (0x56CA, .tLdsb 3 1 2),
    (0x5ECA, .tLdsh 3 1 2),
    (0x654A, .tStrImm 21 1 2),
    (0x6D4A, .tLdrImm 21 1 2),
    (0x754A, .tStrbImm 21 1 2),
    (0x7D4A, .tLdrbImm 21 1 2),
    (0x854A, .tStrhImm 21 1 2),
    (0x8D4A, .tLdrhImm 21 1 2),
    (0x9245, .tStrSp 2 0x45),
    (0x9A45, .tLdrSp 2 0x45)]

/-- Forms 12 to 19 (R118 to R121). -/
def thumb12Words : List (Half × Instr) := [
    (0xA245, .tAddPc 2 0x45),
    (0xAA45, .tAddSp 2 0x45),
    (0xB045, .tSpAdd 0x45),
    (0xB0C5, .tSpSub 0x45),
    (0xB545, .tPush true 0x45),
    (0xBC45, .tPop false 0x45),
    (0xC245, .tStmia 2 0x45),
    (0xCA45, .tLdmia 2 0x45),
    (0xD085, .tBeq 0x85),
    (0xD185, .tBne 0x85),
    (0xD285, .tBcs 0x85),
    (0xD385, .tBcc 0x85),
    (0xD485, .tBmi 0x85),
    (0xD585, .tBpl 0x85),
    (0xD685, .tBvs 0x85),
    (0xD785, .tBvc 0x85),
    (0xD885, .tBhi 0x85),
    (0xD985, .tBls 0x85),
    (0xDA85, .tBge 0x85),
    (0xDB85, .tBlt 0x85),
    (0xDC85, .tBgt 0x85),
    (0xDD85, .tBle 0x85),
    (0xDF45, .tSwi 0x45),
    (0xE645, .tB 0x645),
    (0xF645, .tBlHigh 0x645),
    (0xFE45, .tBlLow 0x645),
    (0xEE44, .tBlxLow 0x644)]

/-- All of the ARM words. -/
def armWords : List (Word × Instr) :=
  armData1Words ++ armData2Words ++ armData3Words ++ armData4Words ++ armMultiplyWords ++
    armPsrWords ++ armTransferWordWords ++ armTransferByteWords ++ armHalfwordSwapWords ++ armBlockWords ++ armBranchWords

/-- All of the THUMB halfwords. -/
def thumbWords : List (Half × Instr) :=
  thumb1Words ++ thumb4Words ++ thumb6Words ++ thumb12Words

end Sys2Proof.Claims
end

