-- ==== Sys2Proof/Certificates/Slice0/Obligations.lean ====
section
/-! DEFINITION. The statements for the provers, from the numbered rules of spec/. Each docstring names its rules. -/

open Sys2Proof Sys2Proof.Machine Sys2Proof.Claims

/-! ## Flags, shifter, conditions -/

/-- R132 to R135: result, C and V of the four adders. -/
def Obligations.AdderRules : Prop := ∀ (a b : Word) (cin : Bool),
  ((aluAdd a b).value.toNat = (a.toNat + b.toNat) % 2 ^ 32 ∧
    ((aluAdd a b).carry = true ↔ 2 ^ 32 ≤ a.toNat + b.toNat) ∧
    ((aluAdd a b).overflow = true ↔ a.msb = b.msb ∧ (aluAdd a b).value.msb ≠ a.msb)) ∧
  ((aluSub a b).value = BitVec.ofInt 32 (unsigned a - unsigned b) ∧
    ((aluSub a b).carry = true ↔ b.toNat ≤ a.toNat) ∧
    ((aluSub a b).overflow = true ↔ a.msb ≠ b.msb ∧ (aluSub a b).value.msb ≠ a.msb)) ∧
  ((aluAdc a b cin).value.toNat = (a.toNat + b.toNat + cin.toNat) % 2 ^ 32 ∧
    ((aluAdc a b cin).carry = true ↔ 2 ^ 32 ≤ a.toNat + b.toNat + cin.toNat) ∧
    ((aluAdc a b cin).overflow = true ↔ a.msb = b.msb ∧ (aluAdc a b cin).value.msb ≠ a.msb)) ∧
  ((aluSbc a b cin).value = BitVec.ofInt 32 (unsigned a - unsigned b - (1 - bitValue cin)) ∧
    ((aluSbc a b cin).carry = true ↔ 2 ^ 32 ≤ a.toNat + (~~~b).toNat + cin.toNat) ∧
    ((aluSbc a b cin).overflow = true ↔ a.msb ≠ b.msb ∧ (aluSbc a b cin).value.msb ≠ a.msb))

/-- R137 (a) and (b): V is set exactly when the exact signed result does not fit, C is the unsigned reading, and a
subtraction is an addition of the complement.
Choices this rests on: R137 is the spec's own derivation. -/
def Obligations.OverflowIsSignedRange : Prop := ∀ (a b : Word) (cin : Bool),
  (aluAdd a b).overflow = overflows (a.toInt + b.toInt) ∧
  (aluSub a b).overflow = overflows (a.toInt - b.toInt) ∧
  (aluAdc a b cin).overflow = overflows (a.toInt + b.toInt + bitValue cin) ∧
  (aluSbc a b cin).overflow = overflows (a.toInt - b.toInt - (1 - bitValue cin)) ∧
  (aluSbc a b cin).carry = decide (0 ≤ unsigned a - unsigned b - (1 - bitValue cin)) ∧
  aluSub a b = aluAdc a (~~~b) true

/-- R142 to R145: value and carry of each shift for every amount.
Choices this rests on: the rows 1 to 31 of LSR and ASR and row 0 of ASR are G6.
Log entry 16 records G6. -/
def Obligations.ShifterTables : Prop := ∀ (v : Word) (n : Nat) (cin : Bool),
  (shift .lsl v n cin =
    if n = 0 then (v, cin)
    else if n ≤ 31 then (BitVec.ofNat 32 (v.toNat * 2 ^ n), v.getLsbD (32 - n))
    else if n = 32 then (0, v.getLsbD 0) else (0, false)) ∧
  (shift .lsr v n cin =
    if n = 0 then (v, cin)
    else if n ≤ 31 then (BitVec.ofNat 32 (v.toNat / 2 ^ n), v.getLsbD (n - 1))
    else if n = 32 then (0, v.getLsbD 31) else (0, false)) ∧
  (shift .asr v n cin =
    if n = 0 then (v, cin)
    else if n ≤ 31 then (BitVec.ofInt 32 (v.toInt / 2 ^ n), v.getLsbD (n - 1))
    else (if v.getLsbD 31 = true then 0xFFFFFFFF#32 else 0, v.getLsbD 31)) ∧
  (n ≠ 0 → n % 32 = 0 → shift .ror v n cin = (v, v.getLsbD 31)) ∧
  shift .ror v 0 cin = (v, cin) ∧
  (n % 32 ≠ 0 → (∀ k, k < 32 → (shift .ror v n cin).1.getLsbD k = v.getLsbD ((k + n) % 32)) ∧
    (shift .ror v n cin).2 = v.getLsbD (n % 32 - 1))

/-- R141, R146, R147, R150: the encoded amount 0, RRX, a register amount by its low byte, and the rotated immediate.
Choices this rests on: the carry of the immediate is D40.
Log entry 15 records D40. -/
def Obligations.ShifterAmounts : Prop := ∀ (ty : ShiftType) (v rs : Word) (imm5 : BitVec 5) (cin : Bool),
  (imm5 ≠ 0 → shiftImm ty v imm5 cin = shift ty v imm5.toNat cin) ∧
  shiftImm .lsl v 0 cin = (v, cin) ∧
  shiftImm .lsr v 0 cin = (0, v.getLsbD 31) ∧
  shiftImm .asr v 0 cin = (if v.getLsbD 31 = true then 0xFFFFFFFF#32 else 0, v.getLsbD 31) ∧
  ((shiftImm .ror v 0 cin).1.toNat = v.toNat / 2 + cin.toNat * 2 ^ 31 ∧ (shiftImm .ror v 0 cin).2 = v.getLsbD 0) ∧
  shiftReg ty v rs cin = shift ty v (rs.toNat % 256) cin ∧
  (∀ (rot : BitVec 4) (imm8 : BitVec 8),
    (∀ k, k < 32 → (immOperand rot imm8 cin).1.getLsbD k =
      (BitVec.setWidth 32 imm8).getLsbD ((k + 2 * rot.toNat) % 32)) ∧
    (immOperand rot imm8 cin).2 = if rot = 0 then cin else (immOperand rot imm8 cin).1.getLsbD 31)

/-- R152, R153, R161: operand 2, and what r15 reads as an operand of data processing. -/
def Obligations.DataOperands : Prop := ∀ (s : State) (rn rm rs : Reg) (rot : BitVec 4) (imm8 : BitVec 8)
    (amount : BitVec 5) (ty : ShiftType),
  s.operand2 (.imm rot imm8) = immOperand rot imm8 s.cpsr.c ∧
  s.operand2 (.shImm amount ty rm) = shiftImm ty (if rm = 15 then s.now.ia + 8 else s.x rm) amount s.cpsr.c ∧
  s.operand2 (.shReg rs ty rm) = shiftReg ty (if rm = 15 then s.now.ia + 12 else s.x rm)
    (if rs = 15 then s.now.ia + 12 else s.x rs) s.cpsr.c ∧
  s.operand1 (.imm rot imm8) rn = (if rn = 15 then s.now.ia + 8 else s.x rn) ∧
  s.operand1 (.shImm amount ty rm) rn = (if rn = 15 then s.now.ia + 8 else s.x rn) ∧
  s.operand1 (.shReg rs ty rm) rn = (if rn = 15 then s.now.ia + 12 else s.x rn)

/-- R96: the condition table, by the condition field's bits.
Choices this rests on: the table is G1.
Log entry 16 records G1. -/
def Obligations.ConditionTable : Prop := ∀ (n z c v : Bool),
  let passes (b : BitVec 4) : Option Bool := (Cond.ofBits b).map fun k => condPassed k ⟨n, z, c, v⟩
  passes 0b0000 = some z ∧ passes 0b0001 = some (!z) ∧ passes 0b0010 = some c ∧ passes 0b0011 = some (!c) ∧
  passes 0b0100 = some n ∧ passes 0b0101 = some (!n) ∧ passes 0b0110 = some v ∧ passes 0b0111 = some (!v) ∧
  passes 0b1000 = some (c && !z) ∧ passes 0b1001 = some (!c || z) ∧
  passes 0b1010 = some (decide (n = v)) ∧ passes 0b1011 = some (decide (n ≠ v)) ∧
  passes 0b1100 = some (!z && decide (n = v)) ∧ passes 0b1101 = some (z || decide (n ≠ v)) ∧
  passes 0b1110 = some true ∧ passes 0b1111 = none

/-! ## Registers, memory, initial state -/

/-- R22, R23, R25: which registers of two modes are the same cell, the names of the banked cells, and that a write reaches
exactly its own cell. -/
def Obligations.RegisterViews : Prop :=
  (∀ (m m' : Mode) (i j : Reg), cell m i = cell m' j ↔
    i = j ∧ (i.val ≤ 7 ∨ i = 15 ∨ m = m' ∨ (m = .user ∧ m' = .system) ∨ (m = .system ∧ m' = .user) ∨
      (i.val ≤ 12 ∧ m ≠ .fiq ∧ m' ≠ .fiq))) ∧
  (∀ i : Reg, cell .user i = .gen i) ∧
  (∀ k : Fin 7, cell .fiq ⟨8 + k.val, by omega⟩ = .fiq k) ∧
  (∀ k : Fin 2, let i : Reg := ⟨13 + k.val, by omega⟩
    cell .supervisor i = .svc k ∧ cell .abort i = .abt k ∧ cell .irq i = .irq k ∧ cell .undefined i = .und k) ∧
  (∀ (s : State) (m m' : Mode) (i j : Reg) (v : Word), (s.setCell (cell m i) v).getCell (cell m' j) =
    if cell m' j = cell m i then v else s.getCell (cell m' j))

/-- R61 to R66 and R69: reads and writes of the three widths by their bytes, little-endian, aligned as the rules say.
Choices this rests on: the byte order is D1, and the canonical form is the model's, log entry 3.
Log entry 13 records D1. -/
def Obligations.MemoryLayout : Prop := ∀ (s : State) (w : Width) (a v : Word),
  s.peek .byte a = (s.mem.read8 a).setWidth 32 ∧
  s.peek .half a = BitVec.setWidth 32 (s.mem.read8 ((a &&& ~~~1#32) + 1) ++ s.mem.read8 (a &&& ~~~1#32)) ∧
  s.peek .word a = s.mem.read8 ((a &&& ~~~3#32) + 3) ++ s.mem.read8 ((a &&& ~~~3#32) + 2) ++
    s.mem.read8 ((a &&& ~~~3#32) + 1) ++ s.mem.read8 (a &&& ~~~3#32) ∧
  storeAddr .byte a = a ∧ storeAddr .half a = a &&& ~~~1#32 ∧ storeAddr .word a = a &&& ~~~3#32 ∧
  (s.mem.wf = true → StoredBytes s (s.busWrite w a v) w a v ∧ (s.busWrite w a v).mem.wf = true)

/-- R45, R50: the state after initialisation, for every INIT; reset is one of these states.
Choices this rests on: that INIT supplies the rest is R50 (D5) and R500, and which INIT reset takes is the model's
choice, log entries 1 to 3.
Log entry 15 records D5. -/
def Obligations.InitialState : Prop := (∀ init : Init,
  let s := State.initialise init
  s.cpsr = { n := init.n, z := true, c := true, v := init.v, i := init.i, f := init.f, t := false, m := .system } ∧
  s.pc = 0x08000000 ∧ s.x 0 = 0x08000000 ∧ s.x 1 = 0x000000EA ∧ s.x 13 = 0x03007F00 ∧
  s.getCell (cell .supervisor 13) = 0x03007FE0 ∧ s.getCell (cell .irq 13) = 0x03007FA0 ∧
  (∀ c : Cell, c ∉ [cell .user 0, cell .user 1, cell .user 13, cell .user 15, cell .supervisor 13, cell .irq 13] →
    s.getCell c = init.regs.get c.idx) ∧
  s.spsrs = init.spsrs ∧ s.slot = { word := s.mem.read32 0x08000000, addr := 0x08000000 } ∧
  s.mem = init.mem ∧ s.irq = init.irq ∧ s.cfg = init.cfg) ∧
  ∃ init, State.reset = State.initialise init

/-! ## The step -/

/-- R440, R432, R433, R436: a step that takes no IRQ runs the instruction its slot decodes to, on the state with r15
advanced, and then refills the slot; a refused instruction refuses the step. -/
def Obligations.StepRunsDecoded : Prop := ∀ (s : State) (i : Instr), ¬IrqDue s → decode (slotWord s) = .ok i →
  ∃ b, Begun s b ∧ (∀ t, exec i b = .next t → ∃ u, Refilled t u ∧ step s = .next u) ∧
    ∀ r, exec i b = .refused r → step s = .refused r

/-- R436, R441: after every step the slot's address is r15 and its word what memory holds there, of the width that CPSR.T
selects, and the step's last bus call is that fetch. -/
def Obligations.StepRefillsSlot : Prop := ∀ s t : State, step s = .next t →
  t.slot.addr = t.pc ∧
  t.slot.word = (if t.cpsr.t then (t.mem.read16 t.pc).setWidth 32 else t.mem.read32 t.pc) ∧
  ∃ before, t.now.calls = before ++
    [.fetch (if t.cpsr.t then .half else .word) t.pc (if t.now.branched then .branch else .sequential)]

/-- R38, R28, R40, R441: every step keeps r15 aligned for the state, the slot at r15 and memory canonical.
Choices this rests on: the canonical form of memory is the model's, log entry 3. -/
def Obligations.StepKeepsInvariant : Prop := ∀ s t : State, s.inv = true → step s = .next t → t.inv = true

/-- R38 and R45: every initial state has the invariant, whatever INIT, and so has reset.
Choices this rests on: the canonical form of memory is the model's, log entry 3. -/
def Obligations.InitialInvariant : Prop :=
  (∀ init : Init, init.mem.wf = true → (State.initialise init).inv = true) ∧ State.reset.inv = true

/-- R438, R450 to R452, R459: an enabled and unmasked request is taken at the top of the step, which executes nothing.
Choices this rests on: that the entry is a step of its own is D3, the order of its writes D23.
Log entry 15 records the D entries named. -/
def Obligations.IrqEntry : Prop := ∀ s : State, IrqDue s →
  ∃ t u, Entered s t .irq (s.pc + 4) 0x00000018 ∧ t.now = { ia := s.pc, branched := true, calls := [] } ∧
    Refilled t u ∧ step s = .next u

/-- R42, R450: no step writes IME, IE or IF, nor a parameter.
Choices this rests on: that the inputs are sampled words is D39, and that the parameters of R9 are fields of State
which no step writes is log entry 6.
Log entry 15 records D39. -/
def Obligations.StepKeepsInputs : Prop := ∀ s t : State, step s = .next t → t.irq = s.irq ∧ t.cfg = s.cfg

/-- R96, R434: an ARM word whose condition fails changes only r15 and the slot, whatever the rest of the word.
Choices this rests on: the condition table is G1.
Log entry 16 records G1. -/
def Obligations.FailedConditionSkips : Prop := ∀ (s : State) (c : Cond), ¬IrqDue s → s.cpsr.t = false →
  Cond.ofBits (s.slot.word.extractLsb' 28 4) = some c → ¬Passes c s →
  ∃ b u, Begun s b ∧ Refilled b u ∧ step s = .next u

/-- R97, R310: an ARM word with condition field 1111.
Choices this rests on: D6; the name of the refusal is the model's, log entry 11.
Log entry 15 records D6. -/
def Obligations.ConditionNvWord : Prop := ∀ s : State, ¬IrqDue s → s.cpsr.t = false →
  s.slot.word.extractLsb' 28 4 = 0b1111 →
  (s.cfg.condNv = .refuse → step s = .refused .conditionNv) ∧
  (s.cfg.condNv = .never → ∃ b u, Begun s b ∧ Refilled b u ∧ step s = .next u)

/-- R308, R309, R425, R458: the undefined pattern, BLX without HAS_BLX and every unallocated word, under both policies.
Choices this rests on: D7, D8 and D9, the vector G10.
Log entries 14 and 15 record the D and G entries named. -/
def Obligations.UndefinedRoute : Prop :=
  (∀ (s : State) (c : Cond), Passes c s → UndefinedTaken s (exec (.undefinedPattern c) s)) ∧
  (∀ (s : State) (c : Cond) (rn : Reg), Passes c s → s.cfg.hasBlx = false → UndefinedTaken s (exec (.blx c rn) s)) ∧
  (∀ (s : State) (offset11 : BitVec 11), s.cfg.hasBlx = false → UndefinedTaken s (exec (.tBlxLow offset11) s)) ∧
  (∀ s : State, ¬IrqDue s →
    ((∃ c sp, decode (slotWord s) = .error (.unallocatedArm c sp) ∧ Passes c s) ∨
      decode (slotWord s) = .error .unallocatedThumb) →
    ∃ b answer, Begun s b ∧ UndefinedTaken b answer ∧ ∀ t, answer = .next t → ∃ u, Refilled t u ∧ step s = .next u)

/-- R306, R415, R455, R459: SWI from both sets.
Choices this rests on: the return address is D9, the order of the writes D23.
Log entry 15 records the D entries named. -/
def Obligations.SwiEntry : Prop := ∀ s : State,
  (∀ (c : Cond) (comment24 : BitVec 24), s.cpsr.t = false → Passes c s →
    Answers (.swi c comment24) s fun t => Entered s t .supervisor (s.now.ia + 4) 0x00000008 ∧
      t.slot = s.slot ∧ t.now = { s.now with branched := true }) ∧
  (∀ value8 : BitVec 8, s.cpsr.t = true →
    Answers (.tSwi value8) s fun t => Entered s t .supervisor (s.now.ia + 2) 0x00000008 ∧
      t.slot = s.slot ∧ t.now = { s.now with branched := true })

/-- R475, R37, R33: in USER mode a step either stays in USER mode with I and F as they were, or takes one of the three
exceptions.
Choices this rests on: that MSR ignores the control byte in USER mode is D38, the restore there U5, the Undefined
entry D7 and G10.
Log entries 14 and 15 record the D and G entries named. -/
def Obligations.UserModeContained : Prop := ∀ s t : State, s.cpsr.m = .user → step s = .next t →
  (t.cpsr.m = .user ∧ t.cpsr.i = s.cpsr.i ∧ t.cpsr.f = s.cpsr.f ∧ t.spsrs = s.spsrs) ∨
  (((t.cpsr.m = .irq ∧ t.pc = 0x00000018) ∨ (t.cpsr.m = .supervisor ∧ t.pc = 0x00000008) ∨
      (t.cpsr.m = .undefined ∧ t.pc = 0x00000004)) ∧
    t.cpsr.i = true ∧ t.cpsr.f = s.cpsr.f ∧ t.cpsr.t = false ∧ t.spsrs.get? t.cpsr.m = some s.cpsr.toSpsr)

/-- R35: a step writes an SPSR only by an exception entry into its mode or by MSR SPSR executed in its mode.
Choices this rests on: that MSR SPSR is refused in USER and SYSTEM mode is D16, the Undefined entry D7 and G10.
Log entries 14 and 15 record the D and G entries named. -/
def Obligations.SpsrWrittenOnlyByOwnMode : Prop := ∀ (s t : State) (m : Mode), step s = .next t →
  t.spsrs.get? m = s.spsrs.get? m ∨
  (t.cpsr.m = m ∧ t.cpsr.i = true ∧ t.cpsr.t = false ∧ t.pc ∈ [0x00000018#32, 0x00000008#32, 0x00000004#32] ∧
    t.spsrs.get? m = some s.cpsr.toSpsr) ∨
  (s.cpsr.m = m ∧ t.cpsr = s.cpsr ∧ ((∃ c mask rm, decode (slotWord s) = .ok (.msrReg c true mask rm)) ∨
    ∃ c mask rot imm8, decode (slotWord s) = .ok (.msrImm c true mask rot imm8)))

/-- R22 to R25, R459: a step reaches a cell outside the current view and the user view only as the r14 of the mode an
exception enters.
Choices this rests on: the Undefined entry is D7 and G10, the user view of S-bit transfers D21.
Log entries 14 and 15 record the D and G entries named. -/
def Obligations.BanksIsolated : Prop := ∀ (s t : State) (c : Cell), step s = .next t →
  (∀ i, c ≠ cell s.cpsr.m i) → (∀ i, c ≠ .gen i) →
  t.getCell c = s.getCell c ∨ (c = cell t.cpsr.m 14 ∧ t.cpsr.i = true ∧ t.cpsr.t = false ∧
    t.pc ∈ [0x00000018#32, 0x00000008#32, 0x00000004#32])

/-! ## Encoding -/

/-- R69, R90 to R110: decoding the word of an ARM instruction, or its four bytes in front of others, gives the
instruction back, with every operand.
Choices this rests on: the bit positions are G3, the byte order D1.
Log entries 13 and 16 record the D and G entries named. -/
def Obligations.ArmDecodeEncode : Prop := ∀ (i : Instr) (w : Word), encode i = .arm w →
  decodeArm w = .ok i ∧ (encodeBytes i).length = 4 ∧
    ∀ rest : List Byte, decodeBytes false (encodeBytes i ++ rest) = .ok (i, rest)

/-- R69, R90, R113 to R121: decoding the halfword of a THUMB instruction, or its two bytes in front of others, gives the
instruction back, with every operand.
Choices this rests on: the bit positions are G4, the byte order D1.
Log entries 13 and 16 record the D and G entries named. -/
def Obligations.ThumbDecodeEncode : Prop := ∀ (i : Instr) (h : Half), encode i = .thumb h →
  decodeThumb h = .ok i ∧ (encodeBytes i).length = 2 ∧
    ∀ rest : List Byte, decodeBytes true (encodeBytes i ++ rest) = .ok (i, rest)

/-- R93, R113, R127: no word selects two rows.
Choices this rests on: the partition is D27.
Log entry 15 records D27. -/
def Obligations.OneRowPerWord : Prop :=
  armTable.Pairwise (fun r r' => ∀ w, ¬(r.hits w = true ∧ r'.hits w = true)) ∧
  thumbTable.Pairwise (fun r r' => ∀ h, ¬(r.hits h = true ∧ r'.hits h = true))

/-- R112, R122: the words of the unallocated spaces X1 to X6 and the unallocated halfwords select no row and are rejected
under the space's name. The decoder reads both BLX whatever HAS_BLX is (log entry 18); UndefinedRoute says what they do when
it is false.
Choices this rests on: D8, D29 and D36, and that the decoder reads BLX whatever HAS_BLX is, log entry 18.
Log entry 15 records the D entries named. -/
def Obligations.UnallocatedRejected : Prop :=
  (∀ (w : Word) (c : Cond) (sp : ArmSpace), Cond.ofBits (w.extractLsb' 28 4) = some c → InSpace sp w →
    decodeArm w = .error (.unallocatedArm c sp)) ∧
  (∀ h : Half, decodeThumb h = .error .unallocatedThumb ↔
    h.extractLsb' 8 8 = 0b11011110 ∨ h.extractLsb' 7 9 = 0b010001111 ∨
    (h.extractLsb' 12 4 = 0b1011 ∧ h.extractLsb' 8 4 ≠ 0b0000 ∧ h.extractLsb' 9 2 ≠ 0b10))

/-- R98 to R110, R114 to R121: words written out from the formats of spec/30_encoding.md, at least one for every row of
both tables, decode to the instructions they stand for.
Choices this rests on: G3 and G4.
Log entry 16 records the G entries named. -/
def Obligations.DecodedWords : Prop :=
  decodeArm 0xE2511001#32 = .ok (.subImm .al true 1 1 0 1) ∧
  decodeArm 0xE1B01022#32 = .ok (.movShImm .al true 0 1 0 .lsr 2) ∧
  decodeArm 0xE0810392#32 = .ok (.umull .al false 1 0 3 2) ∧
  decodeArm 0xE328F20F#32 = .ok (.msrImm .al false 0b1000 2 0x0F) ∧
  decodeArm 0xE7910102#32 = .ok (.ldrRegPre .al true false 1 0 2 .lsl 2) ∧
  decodeArm 0xE1D150B1#32 = .ok (.ldrhImm .al true true false 1 5 1) ∧
  decodeArm 0xE8FD8001#32 = .ok (.ldmRestore .al false true true 13 1) ∧
  decodeArm 0x1AFFFFFC#32 = .ok (.b .ne 0xFFFFFC) ∧
  decodeThumb 0x1E48#16 = .ok (.tSubImm3 1 1 0) ∧
  decodeThumb 0x46F7#16 = .ok (.tMovHi 15 14) ∧
  decodeThumb 0x5E88#16 = .ok (.tLdsh 2 1 0) ∧
  decodeThumb 0xB510#16 = .ok (.tPush true 0x10) ∧
  decodeThumb 0xD1FC#16 = .ok (.tBne 0xFC) ∧
  (∀ p ∈ armWords, decodeArm p.1 = .ok p.2) ∧ (∀ p ∈ thumbWords, decodeThumb p.1 = .ok p.2) ∧
  (∀ r ∈ armTable, ∃ p ∈ armWords, r.hits p.1 = true) ∧ ∀ r ∈ thumbTable, ∃ p ∈ thumbWords, r.hits p.1 = true

/-- R202, R231, R242, R243, R259, R261, R285, R289 to R291, R395, R400: an ill-formed instruction whose condition holds is
refused, by the name of what is wrong with it.
Choices this rests on: that these combinations are refused is D19, D21 and D31; the names of the refusals, and which
name wins where two defects meet, are the model's, log entry 11.
Log entry 15 records the D entries named. -/
def Obligations.IllFormedRefused : Prop := ∀ (i : Instr) (s : State) (d : Defect), i.defect? = some d →
  Passes (condition i) s → exec i s = .refused (refusalOf d)

/-- R68, R71, R430: every well-formed instruction completes in every state that allows it, and leaves the slot, the inputs
and the parameters alone.
Choices this rests on: what is well-formed is D19, D21 and D31, what a state must allow D15 and D16; that the
parameters are fields of State is log entry 6.
Log entry 15 records the D entries named. -/
def Obligations.WellFormedCompletes : Prop := ∀ (i : Instr) (s : State), WellFormed i → StateAllows i s →
  Answers i s fun t => t.slot = s.slot ∧ t.irq = s.irq ∧ t.cfg = s.cfg ∧ t.now.ia = s.now.ia

/-! ## ARM data processing -/

/-- R162, R163, R170 to R177, R182 to R185: the twelve opcodes that write Rd, Rd other than r15, in all operand forms.
Choices this rests on: the formulas are G5.
Log entry 16 records G5. -/
def Obligations.DataResult : Prop := ∀ (s : State) (op : DpOp) (c : Cond) (sb : Bool) (rn rd : Reg) (o : Operand2),
  op.writes = true → rd ≠ 15 → Passes c s →
  let a := s.operand1 o rn
  let b := (s.operand2 o).1
  let r := dataValue op a b s.cpsr.c
  Answers (dataInstr op c sb rn rd o) s fun t => t.x rd = r ∧
    (if sb = true then FlagsAre t (negative r) (isZero r)
        (dataCarry op a b s.cpsr.c (s.operand2 o).2) (dataOverflow op a b s.cpsr.c s.cpsr.v)
      else SameFlags s t) ∧
    Quiet s t [cell s.mode rd]

/-- R163, R165, R178 to R181: TST, TEQ, CMP and CMN, Rd other than r15, write the flags and nothing else.
Choices this rests on: the formulas are G5.
Log entry 16 records G5. -/
def Obligations.DataTests : Prop := ∀ (s : State) (op : DpOp) (c : Cond) (sb : Bool) (rn rd : Reg) (o : Operand2),
  op.writes = false → rd ≠ 15 → Passes c s →
  let a := s.operand1 o rn
  let b := (s.operand2 o).1
  let r := dataValue op a b s.cpsr.c
  Answers (dataInstr op c sb rn rd o) s fun t =>
    FlagsAre t (negative r) (isZero r) (dataCarry op a b s.cpsr.c (s.operand2 o).2)
      (dataOverflow op a b s.cpsr.c s.cpsr.v) ∧
    Quiet s t []

/-- R162, R14: a result written to r15 without S is a branch in ARM state, the low two bits dropped.
Choices this rests on: the formulas are G5.
Log entry 16 records G5. -/
def Obligations.DataWritesPc : Prop := ∀ (s : State) (op : DpOp) (c : Cond) (rn : Reg) (o : Operand2),
  op.writes = true → s.cpsr.t = false → Passes c s →
  Answers (dataInstr op c false rn 15 o) s fun t =>
    t.pc = dataValue op (s.operand1 o rn) (s.operand2 o).1 s.cpsr.c &&& ~~~3#32 ∧
    SameFlags s t ∧ SameControl s t ∧ Frame s t [.gen 15] [] true ∧ SameBytes s t

/-- R164, R165, R229, R462: with S and Rd = r15 the SPSR becomes the CPSR; an opcode that writes branches, aligned by the
restored T, and a test opcode does not; an unrecognised saved mode refuses.
Choices this rests on: D15, D24 and D34, the formulas G5; the name of the refusal is the model's, log entry 11.
Log entries 15 and 16 record the D and G entries named. -/
def Obligations.DataReturns : Prop := ∀ (s : State) (op : DpOp) (c : Cond) (rn : Reg) (o : Operand2), Passes c s →
  let r := dataValue op (s.operand1 o rn) (s.operand2 o).1 s.cpsr.c
  (Restorable s → Answers (dataInstr op c true rn 15 o) s fun t => RestoredCpsr s t ∧
    (op.writes = true → t.pc = if t.cpsr.t then r &&& ~~~1#32 else r &&& ~~~3#32) ∧
    (op.writes = false → t.pc = s.pc) ∧
    Frame s t [.gen 15] [] op.writes ∧ SameBytes s t) ∧
  (¬Restorable s → exec (dataInstr op c true rn 15 o) s = .refused .unrecognisedMode)

/-! ## ARM multiply -/

/-- R201, R203, R204, R209: MUL and MLA.
Choices this rests on: C = 0 is D35, the addend of MLA G12.
Log entries 15 and 16 record the D and G entries named. -/
def Obligations.MultiplyShort : Prop := ∀ (s : State) (c : Cond) (sb : Bool) (rd rn rs rm : Reg),
  rd ≠ 15 → rs ≠ 15 → rm ≠ 15 → rd ≠ rm → Passes c s →
  let effect (r : Word) (t : State) : Prop := t.x rd = r ∧
    (if sb = true then FlagsAre t (negative r) (isZero r) false s.cpsr.v else SameFlags s t) ∧
    Quiet s t [cell s.mode rd]
  Answers (.mul c sb rd rn rs rm) s (effect (BitVec.ofNat 32 ((s.x rm).toNat * (s.x rs).toNat))) ∧
  (rn ≠ 15 → Answers (.mla c sb rd rn rs rm) s
    (effect (BitVec.ofNat 32 ((s.x rm).toNat * (s.x rs).toNat + (s.x rn).toNat))))

/-- R200, R201, R205 to R209: the four long multiplies.
Choices this rests on: C = 0 is D35, the accumulated pair G12.
Log entries 15 and 16 record the D and G entries named. -/
def Obligations.MultiplyLong : Prop := ∀ (s : State) (sgn acc : Bool) (c : Cond) (sb : Bool) (rdHi rdLo rs rm : Reg),
  rdHi ≠ 15 → rdLo ≠ 15 → rs ≠ 15 → rm ≠ 15 → rdHi ≠ rdLo → rdHi ≠ rm → rdLo ≠ rm → Passes c s →
  let r := BitVec.ofInt 64 (longProduct sgn acc (s.x rm) (s.x rs) (s.x rdHi) (s.x rdLo))
  Answers (longInstr sgn acc c sb rdHi rdLo rs rm) s fun t => t.x rdHi ++ t.x rdLo = r ∧
    (if sb = true then FlagsAre t (negative r) (isZero r) false s.cpsr.v else SameFlags s t) ∧
    Quiet s t [cell s.mode rdHi, cell s.mode rdLo]

/-! ## ARM PSR transfer -/

/-- R221, R222, R30, R31, R36: MRS gives the selected PSR, bits 27:8 zero, the mode as its number where it is the CPSR's; in
USER and SYSTEM mode the SPSR reads as the CPSR.
Choices this rests on: the reserved bits are D14, the mode numbers G2.
Log entries 15 and 16 record the D and G entries named. -/
def Obligations.MrsReads : Prop := ∀ (s : State) (c : Cond) (ps : Bool) (rd : Reg) (p : Spsr), rd ≠ 15 → Passes c s →
  (p = if ps = true then (s.spsrs.get? s.cpsr.m).getD s.cpsr.toSpsr else s.cpsr.toSpsr) →
  Answers (.mrs c ps rd) s fun t =>
    (t.x rd).getLsbD 31 = p.n ∧ (t.x rd).getLsbD 30 = p.z ∧ (t.x rd).getLsbD 29 = p.c ∧ (t.x rd).getLsbD 28 = p.v ∧
    (t.x rd).extractLsb' 8 20 = 0 ∧ (t.x rd).getLsbD 7 = p.i ∧ (t.x rd).getLsbD 6 = p.f ∧ (t.x rd).getLsbD 5 = p.t ∧
    (t.x rd).extractLsb' 0 5 = p.m ∧
    (ps = false ∨ s.cpsr.m = .user ∨ s.cpsr.m = .system → (t.x rd).toNat % 32 = modeNumber s.cpsr.m) ∧
    SameFlags s t ∧ Quiet s t [cell s.mode rd]

/-- R31, R223 to R226, R228, R229, R232, R37: MSR to the CPSR, both operand forms: the f byte writes N, Z, C, V; the c byte
writes I, F, T, M, in a privileged mode only, where exactly the seven numbers of R31 are accepted as M; no register changes.
Choices this rests on: D14, D15 and D38, the mode numbers G2, the field mask G7; the name of the refusal is the
model's, log entry 11.
Log entries 15 and 16 record the D and G entries named. -/
def Obligations.MsrWritesCpsr : Prop := ∀ (s : State) (c : Cond) (mask rot : BitVec 4) (imm8 : BitVec 8) (rm : Reg),
  Passes c s →
  let control := mask.getLsbD 0 = true ∧ s.cpsr.m ≠ .user
  let effect (v : Word) (t : State) : Prop :=
    (mask.getLsbD 3 = true → FlagsAre t (v.getLsbD 31) (v.getLsbD 30) (v.getLsbD 29) (v.getLsbD 28)) ∧
    (mask.getLsbD 3 = false → SameFlags s t) ∧
    (control → t.cpsr.i = v.getLsbD 7 ∧ t.cpsr.f = v.getLsbD 6 ∧ t.cpsr.t = v.getLsbD 5 ∧
      modeNumber t.cpsr.m = v.toNat % 32) ∧
    (¬control → SameControl s t) ∧ Frame s t [] [] false ∧ SameBytes s t
  let both (v : Word) (i : Instr) : Prop :=
    (MsrAllowed s false mask v → Answers i s (effect v)) ∧
    (¬MsrAllowed s false mask v → exec i s = .refused .unrecognisedMode)
  (rm ≠ 15 → both (s.x rm) (.msrReg c false mask rm)) ∧ both (rotatedImm rot imm8) (.msrImm c false mask rot imm8)

/-- R221, R223 to R226: MSR to the SPSR of the mode, both operand forms; any mode value may be stored; refused in USER and
SYSTEM mode; nothing else changes.
Choices this rests on: D14 and D16, the field mask G7; the name of the refusal is the model's, log entry 11.
Log entries 15 and 16 record the D and G entries named. -/
def Obligations.MsrWritesSpsr : Prop := ∀ (s : State) (c : Cond) (mask rot : BitVec 4) (imm8 : BitVec 8) (rm : Reg),
  Passes c s →
  let effect (v : Word) (old : Spsr) (t : State) : Prop := ∃ new : Spsr, t.spsrs.get? s.cpsr.m = some new ∧
    (if mask.getLsbD 3 = true then
        new.n = v.getLsbD 31 ∧ new.z = v.getLsbD 30 ∧ new.c = v.getLsbD 29 ∧ new.v = v.getLsbD 28
      else new.n = old.n ∧ new.z = old.z ∧ new.c = old.c ∧ new.v = old.v) ∧
    (if mask.getLsbD 0 = true then
        new.i = v.getLsbD 7 ∧ new.f = v.getLsbD 6 ∧ new.t = v.getLsbD 5 ∧ new.m = v.extractLsb' 0 5
      else new.i = old.i ∧ new.f = old.f ∧ new.t = old.t ∧ new.m = old.m) ∧
    (∀ m, m ≠ s.cpsr.m → t.spsrs.get? m = s.spsrs.get? m) ∧
    t.regs = s.regs ∧ t.cpsr = s.cpsr ∧ t.slot = s.slot ∧ t.mem = s.mem ∧ t.irq = s.irq ∧ t.cfg = s.cfg ∧ t.now = s.now
  let both (v : Word) (i : Instr) : Prop :=
    (∀ old, s.spsrs.get? s.cpsr.m = some old → Answers i s (effect v old)) ∧
    (s.cpsr.m = .user ∨ s.cpsr.m = .system → exec i s = .refused .noSpsrToWrite)
  (rm ≠ 15 → both (s.x rm) (.msrReg c true mask rm)) ∧ both (rotatedImm rot imm8) (.msrImm c true mask rot imm8)

/-- R233: MRS then MSR of all fields leaves every CPSR bit as it was, in any mode.
Choices this rests on: R233 is the spec's own derivation. -/
def Obligations.MrsMsrRoundTrip : Prop := ∀ (s : State) (rd : Reg), rd ≠ 15 →
  Answers (.mrs .al false rd) s fun t => ∀ t' : State, t'.cpsr = t.cpsr → t'.x rd = t.x rd →
    Answers (.msrReg .al false 0b1111 rd) t' fun u => u.cpsr = s.cpsr

/-! ## ARM single, halfword and swap transfers -/

/-- R241, R242, R259: offset, target and address of a transfer.
Choices this rests on: G8, the wrap D10.
Log entries 15 and 16 record the D and G entries named. -/
def Obligations.TransferAddress : Prop := ∀ (s : State) (ix : Indexing) (rn rm : Reg) (o : Offset) (imm12 : BitVec 12)
    (imm8 : BitVec 8) (amount : BitVec 5) (ty : ShiftType),
  s.offset (.imm12 imm12) = BitVec.ofNat 32 imm12.toNat ∧ s.offset (.imm8 imm8) = BitVec.ofNat 32 imm8.toNat ∧
  s.offset (.shifted amount ty rm) = (shiftImm ty (s.x rm) amount s.cpsr.c).1 ∧ s.offset (.plain rm) = s.x rm ∧
  s.indexTarget ix rn o = BitVec.ofInt 32 (unsigned (if rn = 15 then s.now.ia + 8 else s.x rn) +
    (if ix.up then unsigned (s.offset o) else -unsigned (s.offset o))) ∧
  s.indexAddr ix rn o = (if ix.pre then s.indexTarget ix rn o else if rn = 15 then s.now.ia + 8 else s.x rn) ∧
  ix.writesBack = (!ix.pre || ix.w)

/-- R243, R246, R248, R250 to R252: LDR, LDRB and their T variants into a register other than r15.
Choices this rests on: D1, D17, D30 and G8.
Log entries 13, 15 and 16 record the D and G entries named. -/
def Obligations.LoadsRegister : Prop := ∀ (s : State) (byte : Bool) (c : Cond) (ix : Indexing) (rn rd : Reg)
    (o : WordOffset), rd ≠ 15 → o.offset.usesR15 = false → ¬(rn = 15 ∧ ix.writesBack = true) → Passes c s →
  let a := s.indexAddr ix rn o.offset
  Answers (loadInstr byte c ix rn rd o) s fun t =>
    Loaded (if byte then .byte else .word) s a (t.x rd) ∧
    (ix.writesBack = true → rn ≠ rd → t.x rn = s.indexTarget ix rn o.offset) ∧
    SameFlags s t ∧ SameControl s t ∧ SameBytes s t ∧
    Frame s t (cell s.mode rd :: writtenBase s ix rn) [.read (if byte then .byte else .word) a] false

/-- R244, R246, R248: LDR, LDRB and their T variants into r15 branch in ARM state; CPSR.T does not change.
Choices this rests on: D1, D43, D45, G8, and that T stays G14.
Log entries 13, 15 and 16 record the D and G entries named. -/
def Obligations.LoadsPc : Prop := ∀ (s : State) (byte : Bool) (c : Cond) (ix : Indexing) (rn : Reg) (o : WordOffset),
  s.cpsr.t = false → o.offset.usesR15 = false → ¬(rn = 15 ∧ ix.writesBack = true) → Passes c s →
  let a := s.indexAddr ix rn o.offset
  Answers (loadInstr byte c ix rn 15 o) s fun t =>
    (∃ v, Loaded (if byte then .byte else .word) s a v ∧ t.pc = v &&& ~~~3#32) ∧
    (ix.writesBack = true → t.x rn = s.indexTarget ix rn o.offset) ∧
    SameFlags s t ∧ SameControl s t ∧ SameBytes s t ∧
    Frame s t (.gen 15 :: writtenBase s ix rn) [.read (if byte then .byte else .word) a] true

/-- R256 to R259: LDRH, LDRSB and LDRSH.
Choices this rests on: D1, D17, D25 and G8.
Log entries 13, 15 and 16 record the D and G entries named. -/
def Obligations.LoadsHalfword : Prop := ∀ (s : State) (k : HalfKind) (c : Cond) (ix : Indexing) (rn rd : Reg)
    (o : HalfOffset), rd ≠ 15 → o.offset.usesR15 = false → ¬(rn = 15 ∧ ix.writesBack = true) →
  ¬(ix.pre = false ∧ ix.w = true) → Passes c s →
  let a := s.indexAddr ix rn o.offset
  Answers (halfLoadInstr k c ix rn rd o) s fun t =>
    Loaded k.kind s a (t.x rd) ∧
    (ix.writesBack = true → rn ≠ rd → t.x rn = s.indexTarget ix rn o.offset) ∧
    SameFlags s t ∧ SameControl s t ∧ SameBytes s t ∧
    Frame s t (cell s.mode rd :: writtenBase s ix rn) [.read (loadWidth k.kind a) a] false

/-- R243, R245, R247, R249, R250, R253 to R255: STR, STRB, their T variants and STRH; r15 stores with the bias, and the
value is the register's before writeback.
Choices this rests on: D1, D11, D17, D30, D44 and G8.
Log entries 13, 15 and 16 record the D and G entries named. -/
def Obligations.StoresRegister : Prop := ∀ (s : State) (c : Cond) (ix : Indexing) (rn rd : Reg),
  s.mem.wf = true → ¬(rn = 15 ∧ ix.writesBack = true) → Passes c s →
  let effect (w : Width) (o : Offset) (t : State) : Prop :=
    let a := s.indexAddr ix rn o
    StoredBytes s t w a (storedReg s rd) ∧
    (ix.writesBack = true → t.x rn = s.indexTarget ix rn o) ∧
    SameFlags s t ∧ SameControl s t ∧
    Frame s t (writtenBase s ix rn)
      [.write w (storeAddr w a) (BitVec.setWidth 32 (BitVec.setWidth (8 * widthBytes w) (storedReg s rd)))] false
  (∀ (byte : Bool) (o : WordOffset), o.offset.usesR15 = false →
    Answers (storeInstr byte c ix rn rd o) s (effect (if byte then .byte else .word) o.offset)) ∧
  (∀ o : HalfOffset, o.offset.usesR15 = false → ¬(ix.pre = false ∧ ix.w = true) →
    Answers (halfStoreInstr c ix rn rd o) s (effect .half o.offset))

/-- R73, R261 to R263: SWP and SWPB: one read, then one write, at the address in Rn.
Choices this rests on: the byte order is D1.
Log entry 13 records D1. -/
def Obligations.SwapsMemory : Prop := ∀ (s : State) (c : Cond) (rn rd rm : Reg), s.mem.wf = true →
  rn ≠ 15 → rd ≠ 15 → rm ≠ 15 → Passes c s →
  let a := s.x rn
  let effect (k : LoadKind) (w : Width) (t : State) : Prop :=
    Loaded k s a (t.x rd) ∧ StoredBytes s t w a (s.x rm) ∧ SameFlags s t ∧ SameControl s t ∧
    Frame s t [cell s.mode rd] [.read w a,
      .write w (storeAddr w a) (BitVec.setWidth 32 (BitVec.setWidth (8 * widthBytes w) (s.x rm)))] false
  Answers (.swp c rn rd rm) s (effect .word .word) ∧ Answers (.swpb c rn rd rm) s (effect .byte .byte)

/-! ## Block transfers -/

/-- R280 to R284, R395, R397, R402: LDM with S = 0, POP and the THUMB LDMIA: the listed registers from ascending words, the
loaded value winning over writeback, r15 by a branch that leaves CPSR.T alone.
Choices this rests on: D18, D20, D43, D45, G4, the addresses G13, and that T stays G14.
Log entries 15 and 16 record the D and G entries named. -/
def Obligations.BlockLoads : Prop := ∀ (s : State) (i : Instr) (k : Block), IsBlockLoad i k → k.list ≠ 0 → k.rn ≠ 15 →
  Passes k.c s →
  Answers i s fun t =>
    (∀ r : Reg, r ≠ 15 → k.list.getLsbD r.val = true → t.x r = s.mem.read32 (k.addr s (place k.list r))) ∧
    (k.list.getLsbD 15 = true → t.pc = if s.cpsr.t then s.mem.read32 (k.addr s (place k.list 15)) &&& ~~~1#32
      else s.mem.read32 (k.addr s (place k.list 15)) &&& ~~~3#32) ∧
    (k.w = true → k.list.getLsbD k.rn.val = false → t.x k.rn = k.final (s.x k.rn)) ∧
    SameFlags s t ∧ SameControl s t ∧ SameBytes s t ∧
    Frame s t (k.baseCell s ++ k.cells s.mode) (k.reads s) (k.list.getLsbD 15)

/-- R285, R25: LDM with S = 1 and r15 not listed loads the user bank.
Choices this rests on: D1, D20, D21 and the addresses G13.
Log entries 13, 15 and 16 record the D and G entries named. -/
def Obligations.BlockLoadsUser : Prop := ∀ (s : State) (c : Cond) (p up : Bool) (rn : Reg) (list : BitVec 15),
  list ≠ 0 → rn ≠ 15 → Passes c s →
  let k : Block := ⟨c, p, up, false, rn, 0#1 ++ list⟩
  Answers (.ldmUser c p up false rn list) s fun t =>
    (∀ r : Reg, k.list.getLsbD r.val = true → t.getCell (.gen r) = s.mem.read32 (k.addr s (place k.list r))) ∧
    SameFlags s t ∧ SameControl s t ∧ SameBytes s t ∧ Frame s t (k.cells .user) (k.reads s) false

/-- R287, R229, R462: LDM with S = 1 and r15 listed: registers and base through the mode before, then the CPSR from the
SPSR, then r15 aligned by the restored T; an unrecognised saved mode refuses.
Choices this rests on: D15, D18, D20, D24 and the addresses G13; the name of the refusal is the model's, log entry 11.
Log entries 15 and 16 record the D and G entries named. -/
def Obligations.BlockLoadsRestore : Prop := ∀ (s : State) (c : Cond) (p up w : Bool) (rn : Reg) (list : BitVec 15),
  rn ≠ 15 → Passes c s →
  let k : Block := ⟨c, p, up, w, rn, 1#1 ++ list⟩
  let v := s.mem.read32 (k.addr s (place k.list 15))
  (Restorable s → Answers (.ldmRestore c p up w rn list) s fun t =>
    (∀ r : Reg, r ≠ 15 → k.list.getLsbD r.val = true →
      t.getCell (cell s.mode r) = s.mem.read32 (k.addr s (place k.list r))) ∧
    (w = true → k.list.getLsbD rn.val = false → t.getCell (cell s.mode rn) = k.final (s.x rn)) ∧
    RestoredCpsr s t ∧ (t.pc = if t.cpsr.t then v &&& ~~~1#32 else v &&& ~~~3#32) ∧ SameBytes s t ∧
    Frame s t (k.baseCell s ++ k.cells s.mode) (k.reads s) true) ∧
  (¬Restorable s → exec (.ldmRestore c p up w rn list) s = .refused .unrecognisedMode)

/-- R281 to R283, R286, R288, R395, R396, R401: STM with S = 0, PUSH and the THUMB STMIA.
Choices this rests on: D1, D11, D20, G4 and the addresses G13.
Log entries 13, 15 and 16 record the D and G entries named. -/
def Obligations.BlockStores : Prop := ∀ (s : State) (i : Instr) (k : Block), IsBlockStore i k → k.list ≠ 0 → k.rn ≠ 15 →
  s.mem.wf = true → Passes k.c s →
  Answers i s fun t => (∃ calls, BlockStored k s t s.mode calls ∧ Frame s t (k.baseCell s) calls false) ∧
    (k.w = true → t.x k.rn = k.final (s.x k.rn)) ∧ SameFlags s t ∧ SameControl s t

/-- R289, R25: STM with S = 1 stores the user bank.
Choices this rests on: D1, D11, D20, D21 and the addresses G13.
Log entries 13, 15 and 16 record the D and G entries named. -/
def Obligations.BlockStoresUser : Prop := ∀ (s : State) (c : Cond) (p up : Bool) (rn : Reg) (list : BitVec 16),
  list ≠ 0 → rn ≠ 15 → s.mem.wf = true → Passes c s →
  let k : Block := ⟨c, p, up, false, rn, list⟩
  Answers (.stmUser c p up false rn list) s fun t =>
    (∃ calls, BlockStored k s t .user calls ∧ Frame s t [] calls false) ∧ SameFlags s t ∧ SameControl s t

/-- R295, R398: a store of a list by STMDB Rn!, then a load of it by LDMIA Rn!, restores every listed register and the
base, whatever happens to other registers in between; the same of PUSH and POP.
Choices this rests on: R295 and R398 are the spec's own derivations. -/
def Obligations.StackRoundTrip : Prop := ∀ (s : State), s.mem.wf = true →
  (∀ (rn : Reg) (list : BitVec 16), rn ≠ 15 → list ≠ 0 → list.getLsbD rn.val = false → list.getLsbD 15 = false →
    Answers (.stm .al true false true rn list) s fun t => ∀ t' : State, t'.mem = t.mem → t'.cpsr.m = s.cpsr.m →
      t'.x rn = t.x rn →
      Answers (.ldm .al false true true rn list) t' fun u =>
        (∀ r : Reg, list.getLsbD r.val = true → u.x r = s.x r) ∧ u.x rn = s.x rn) ∧
  (∀ rlist : BitVec 8, rlist ≠ 0 →
    Answers (.tPush false rlist) s fun t => ∀ t' : State, t'.mem = t.mem → t'.cpsr.m = s.cpsr.m → t'.x 13 = t.x 13 →
      Answers (.tPop false rlist) t' fun u =>
        (∀ r : LowReg, rlist.getLsbD r.val = true → u.x (lowReg r) = s.x (lowReg r)) ∧ u.x 13 = s.x 13)

/-! ## Branches -/

/-- R300 to R302: B and BL in ARM state. -/
def Obligations.ArmBranches : Prop := ∀ (s : State) (c : Cond) (offset24 : BitVec 24), s.cpsr.t = false → Passes c s →
  let target := BitVec.ofInt 32 (unsigned s.now.ia + 8 + 4 * offset24.toInt) &&& ~~~3#32
  Answers (.b c offset24) s (fun t => t.pc = target ∧ SameFlags s t ∧ SameControl s t ∧
    Frame s t [.gen 15] [] true ∧ SameBytes s t) ∧
  Answers (.bl c offset24) s (fun t => t.pc = target ∧ t.x 14 = s.now.ia + 4 ∧ SameFlags s t ∧ SameControl s t ∧
    Frame s t [.gen 15, cell s.mode 14] [] true ∧ SameBytes s t)

/-- R303, R304, R356: BX, BLX and the THUMB BX: the state from bit 0 of the target, r15 aligned by it; BLX reads its
operand before it writes r14.
Choices this rests on: D12, D28 and G4.
Log entries 15 and 16 record the D and G entries named. -/
def Obligations.BranchExchange : Prop := ∀ (s : State) (c : Cond) (rn : Reg), Passes c s →
  let effect (target : Word) (link : List Cell) (t : State) : Prop :=
    t.cpsr.t = target.getLsbD 0 ∧
    (t.pc = if target.getLsbD 0 then target &&& ~~~1#32 else target &&& ~~~3#32) ∧
    SameFlags s t ∧ t.cpsr.i = s.cpsr.i ∧ t.cpsr.f = s.cpsr.f ∧ t.cpsr.m = s.cpsr.m ∧
    Frame s t (.gen 15 :: link) [] true ∧ SameBytes s t
  let operand := if rn = 15 then s.now.ia + 8 else s.x rn
  Answers (.bx c rn) s (effect operand []) ∧
  (s.cfg.hasBlx = true → Answers (.blx c rn) s fun t => effect operand [cell s.mode 14] t ∧ t.x 14 = s.now.ia + 4) ∧
  Answers (.tBx rn) s (effect (formFiveReg s rn) [])

/-! ## THUMB -/

/-- R321, R323 to R325, R330, R334 to R339, R342, R346 to R349: the THUMB instructions with logical flags, and MUL.
Choices this rests on: G4, C = 0 of MUL is D35.
Log entries 15 and 16 record the D and G entries named. -/
def Obligations.ThumbLogicAndShift : Prop := ∀ (s : State) (rs rd : LowReg) (amount : BitVec 5) (imm8 : BitVec 8),
  let a := s.x (lowReg rd)
  let b := s.x (lowReg rs)
  let cin := s.cpsr.c
  let writes (i : Instr) (r : Word) (carry : Bool) : Prop := Answers i s fun t => t.x (lowReg rd) = r ∧
    FlagsAre t (negative r) (isZero r) carry s.cpsr.v ∧ Quiet s t [.gen (lowReg rd)]
  writes (.tLslImm amount rs rd) (shiftImm .lsl b amount cin).1 (shiftImm .lsl b amount cin).2 ∧
  writes (.tLsrImm amount rs rd) (shiftImm .lsr b amount cin).1 (shiftImm .lsr b amount cin).2 ∧
  writes (.tAsrImm amount rs rd) (shiftImm .asr b amount cin).1 (shiftImm .asr b amount cin).2 ∧
  writes (.tLslReg rs rd) (shiftReg .lsl a b cin).1 (shiftReg .lsl a b cin).2 ∧
  writes (.tLsrReg rs rd) (shiftReg .lsr a b cin).1 (shiftReg .lsr a b cin).2 ∧
  writes (.tAsrReg rs rd) (shiftReg .asr a b cin).1 (shiftReg .asr a b cin).2 ∧
  writes (.tRorReg rs rd) (shiftReg .ror a b cin).1 (shiftReg .ror a b cin).2 ∧
  writes (.tMovImm rd imm8) (BitVec.ofNat 32 imm8.toNat) cin ∧
  writes (.tAnd rs rd) (a &&& b) cin ∧ writes (.tEor rs rd) (a ^^^ b) cin ∧ writes (.tOrr rs rd) (a ||| b) cin ∧
  writes (.tBic rs rd) (a &&& ~~~b) cin ∧ writes (.tMvn rs rd) (~~~b) cin ∧
  writes (.tMul rs rd) (BitVec.ofNat 32 (a.toNat * b.toNat)) false ∧
  Answers (.tTst rs rd) s (fun t =>
    FlagsAre t (negative (a &&& b)) (isZero (a &&& b)) cin s.cpsr.v ∧ Quiet s t [])

/-- R321, R326 to R329, R331 to R333, R340, R341, R343 to R345, R354: the THUMB instructions with arithmetic flags.
Choices this rests on: G4 and D12.
Log entries 15 and 16 record the D and G entries named. -/
def Obligations.ThumbArithmetic : Prop := ∀ (s : State) (rn rs rd : LowReg) (imm3 : BitVec 3) (imm8 : BitVec 8)
    (hd hs : Reg),
  let n := s.x (lowReg rn)
  let a := s.x (lowReg rd)
  let b := s.x (lowReg rs)
  let cin := s.cpsr.c
  let i3 := BitVec.ofNat 32 imm3.toNat
  let i8 := BitVec.ofNat 32 imm8.toNat
  let flags (op : DpOp) (p q : Word) (t : State) : Prop :=
    FlagsAre t (negative (dataValue op p q cin)) (isZero (dataValue op p q cin)) (dataCarry op p q cin cin)
      (dataOverflow op p q cin s.cpsr.v)
  let writes (i : Instr) (op : DpOp) (p q : Word) : Prop := Answers i s fun t =>
    t.x (lowReg rd) = dataValue op p q cin ∧ flags op p q t ∧ Quiet s t [.gen (lowReg rd)]
  let compares (i : Instr) (op : DpOp) (p q : Word) : Prop := Answers i s fun t => flags op p q t ∧ Quiet s t []
  writes (.tAddReg rn rs rd) .add b n ∧ writes (.tSubReg rn rs rd) .sub b n ∧
  writes (.tAddImm3 imm3 rs rd) .add b i3 ∧ writes (.tSubImm3 imm3 rs rd) .sub b i3 ∧
  writes (.tAddImm rd imm8) .add a i8 ∧ writes (.tSubImm rd imm8) .sub a i8 ∧
  writes (.tAdc rs rd) .adc a b ∧ writes (.tSbc rs rd) .sbc a b ∧ writes (.tNeg rs rd) .sub 0 b ∧
  compares (.tCmpImm rd imm8) .sub a i8 ∧ compares (.tCmpReg rs rd) .sub a b ∧ compares (.tCmn rs rd) .add a b ∧
  compares (.tCmpHi hd hs) .sub (formFiveReg s hd) (formFiveReg s hs)

/-- R352, R353, R355, R360 to R364: ADD and MOV of form 5, and forms 12 and 13: no flag changes.
Choices this rests on: D12, D13, D29 and G4.
Log entries 15 and 16 record the D and G entries named. -/
def Obligations.ThumbMovesAndAddresses : Prop := ∀ (s : State) (hd hs : Reg) (rd : LowReg) (word8 : BitVec 8)
    (sword7 : BitVec 7),
  let writes (i : Instr) (d : Reg) (r : Word) : Prop := Answers i s fun t =>
    t.x d = r ∧ SameFlags s t ∧ Quiet s t [cell s.mode d]
  let jumps (i : Instr) (r : Word) : Prop := s.cpsr.t = true → Answers i s fun t =>
    t.pc = r &&& ~~~1#32 ∧ SameFlags s t ∧ SameControl s t ∧ Frame s t [.gen 15] [] true ∧ SameBytes s t
  let sum := BitVec.ofInt 32 (unsigned (formFiveReg s hd) + unsigned (formFiveReg s hs))
  let pcBase := (s.now.ia + 4) &&& ~~~2#32
  (hd ≠ 15 → writes (.tAddHi hd hs) hd sum ∧ writes (.tMovHi hd hs) hd (formFiveReg s hs)) ∧
  (hd = 15 → jumps (.tAddHi hd hs) sum ∧ jumps (.tMovHi hd hs) (formFiveReg s hs)) ∧
  writes (.tAddPc rd word8) (lowReg rd) (BitVec.ofInt 32 (unsigned pcBase + 4 * word8.toNat)) ∧
  writes (.tAddSp rd word8) (lowReg rd) (BitVec.ofInt 32 (unsigned (s.x 13) + 4 * word8.toNat)) ∧
  writes (.tSpAdd sword7) 13 (BitVec.ofInt 32 (unsigned (s.x 13) + 4 * sword7.toNat)) ∧
  writes (.tSpSub sword7) 13 (BitVec.ofInt 32 (unsigned (s.x 13) - 4 * sword7.toNat))

/-- R370, R371, R375, R376, R379 to R381, R384, R386, R389, R392: the loads of forms 6 to 11.
Choices this rests on: D1, D25 and G4.
Log entries 13, 15 and 16 record the D and G entries named. -/
def Obligations.ThumbLoads : Prop := ∀ (s : State) (ro rb rd : LowReg) (offset5 : BitVec 5) (word8 : BitVec 8),
  let sum (a : Word) (n : Nat) : Word := BitVec.ofInt 32 (unsigned a + n)
  let b := s.x (lowReg rb)
  let o := (s.x (lowReg ro)).toNat
  let loads (i : Instr) (k : LoadKind) (a : Word) : Prop := Answers i s fun t =>
    Loaded k s a (t.x (lowReg rd)) ∧ SameFlags s t ∧ SameControl s t ∧ SameBytes s t ∧
    Frame s t [.gen (lowReg rd)] [.read (loadWidth k a) a] false
  loads (.tLdrPc rd word8) .word (sum ((s.now.ia + 4) &&& ~~~2#32) (4 * word8.toNat)) ∧
  loads (.tLdrReg ro rb rd) .word (sum b o) ∧ loads (.tLdrbReg ro rb rd) .byte (sum b o) ∧
  loads (.tLdrhReg ro rb rd) .half (sum b o) ∧ loads (.tLdsb ro rb rd) .sbyte (sum b o) ∧
  loads (.tLdsh ro rb rd) .shalf (sum b o) ∧
  loads (.tLdrImm offset5 rb rd) .word (sum b (4 * offset5.toNat)) ∧
  loads (.tLdrbImm offset5 rb rd) .byte (sum b offset5.toNat) ∧
  loads (.tLdrhImm offset5 rb rd) .half (sum b (2 * offset5.toNat)) ∧
  loads (.tLdrSp rd word8) .word (sum (s.x 13) (4 * word8.toNat))

/-- R370, R373, R374, R378, R383, R385, R388, R391: the stores of forms 7 to 11.
Choices this rests on: D1 and G4.
Log entries 13 and 16 record the D and G entries named. -/
def Obligations.ThumbStores : Prop := ∀ (s : State) (ro rb rd : LowReg) (offset5 : BitVec 5) (word8 : BitVec 8),
  s.mem.wf = true →
  let sum (a : Word) (n : Nat) : Word := BitVec.ofInt 32 (unsigned a + n)
  let b := s.x (lowReg rb)
  let o := (s.x (lowReg ro)).toNat
  let v := s.x (lowReg rd)
  let stores (i : Instr) (w : Width) (a : Word) : Prop := Answers i s fun t =>
    StoredBytes s t w a v ∧ SameFlags s t ∧ SameControl s t ∧
    Frame s t [] [.write w (storeAddr w a) (BitVec.setWidth 32 (BitVec.setWidth (8 * widthBytes w) v))] false
  stores (.tStrReg ro rb rd) .word (sum b o) ∧ stores (.tStrbReg ro rb rd) .byte (sum b o) ∧
  stores (.tStrhReg ro rb rd) .half (sum b o) ∧
  stores (.tStrImm offset5 rb rd) .word (sum b (4 * offset5.toNat)) ∧
  stores (.tStrbImm offset5 rb rd) .byte (sum b offset5.toNat) ∧
  stores (.tStrhImm offset5 rb rd) .half (sum b (2 * offset5.toNat)) ∧
  stores (.tStrSp rd word8) .word (sum (s.x 13) (4 * word8.toNat))

/-- R410, R412, R417: the THUMB conditional branches and B: taken they branch from ia + 4, untaken they change nothing.
Choices this rests on: the condition table is G1, the formats and the sign extension of the offsets G4.
Log entry 16 records the G entries named. -/
def Obligations.ThumbBranches : Prop := ∀ (s : State) (soffset8 : BitVec 8) (offset11 : BitVec 11), s.cpsr.t = true →
  let jumps (i : Instr) (offset : Int) : Prop := Answers i s fun t =>
    t.pc = BitVec.ofInt 32 (unsigned s.now.ia + 4 + 2 * offset) &&& ~~~1#32 ∧
    SameFlags s t ∧ SameControl s t ∧ Frame s t [.gen 15] [] true ∧ SameBytes s t
  let branches (i : Instr) (taken : Bool) : Prop :=
    (taken = true → jumps i soffset8.toInt) ∧ (taken = false → exec i s = .next s)
  let n := s.cpsr.n
  let z := s.cpsr.z
  let c := s.cpsr.c
  let v := s.cpsr.v
  branches (.tBeq soffset8) z ∧ branches (.tBne soffset8) (!z) ∧ branches (.tBcs soffset8) c ∧
  branches (.tBcc soffset8) (!c) ∧ branches (.tBmi soffset8) n ∧ branches (.tBpl soffset8) (!n) ∧
  branches (.tBvs soffset8) v ∧ branches (.tBvc soffset8) (!v) ∧ branches (.tBhi soffset8) (c && !z) ∧
  branches (.tBls soffset8) (!c || z) ∧ branches (.tBge soffset8) (decide (n = v)) ∧
  branches (.tBlt soffset8) (decide (n ≠ v)) ∧ branches (.tBgt soffset8) (!z && decide (n = v)) ∧
  branches (.tBle soffset8) (z || decide (n ≠ v)) ∧ jumps (.tB offset11) offset11.toInt

/-- R418 to R421: the two halves of the THUMB BL and the BLX suffix.
Choices this rests on: D28 and D41, the sign extension of the high offset G4, bit 0 of r14 and the word-aligned target
of the BLX suffix G14.
Log entries 15 and 16 record the D and G entries named. -/
def Obligations.ThumbBranchLink : Prop := ∀ (s : State) (offset11 : BitVec 11),
  Answers (.tBlHigh offset11) s (fun t =>
    t.x 14 = BitVec.ofInt 32 (unsigned s.now.ia + 4 + 4096 * offset11.toInt) ∧
    SameFlags s t ∧ Quiet s t [cell s.mode 14]) ∧
  (s.cpsr.t = true → Answers (.tBlLow offset11) s fun t =>
    t.pc = BitVec.ofInt 32 (unsigned (s.x 14) + 2 * offset11.toNat) &&& ~~~1#32 ∧
    t.x 14 = (s.now.ia + 2) ||| 1#32 ∧ SameFlags s t ∧ SameControl s t ∧
    Frame s t [.gen 15, cell s.mode 14] [] true ∧ SameBytes s t) ∧
  (s.cfg.hasBlx = true → Answers (.tBlxLow offset11) s fun t =>
    t.pc = BitVec.ofInt 32 (unsigned (s.x 14) + 2 * offset11.toNat) &&& ~~~3#32 ∧
    t.x 14 = (s.now.ia + 2) ||| 1#32 ∧ SameFlags s t ∧ t.cpsr.t = false ∧ t.cpsr.i = s.cpsr.i ∧
    t.cpsr.f = s.cpsr.f ∧ t.cpsr.m = s.cpsr.m ∧ Frame s t [.gen 15, cell s.mode 14] [] true ∧ SameBytes s t)
end

