-- ==== Sys2Proof/Laws/Memory.lean ====
section
/-! SUPPORT. Memory: what a read gives after a write, that every write keeps the canonical form, and that canonical
memories with the same bytes are the same list. -/

namespace Sys2Proof.Machine

theorem Memory.wfFrom_cons {lo k : Nat} {b : Byte} {m : Memory} :
    Memory.wfFrom lo ((k, b) :: m) = true ↔
      lo ≤ k ∧ k < 2 ^ 32 ∧ b ≠ Memory.background ∧ Memory.wfFrom (k + 1) m = true := by
  simp [Memory.wfFrom, and_assoc]

theorem Memory.wfFrom_mono {lo lo' : Nat} {m : Memory} (h : lo' ≤ lo) (hm : Memory.wfFrom lo m = true) :
    Memory.wfFrom lo' m = true := by
  cases m with
  | nil => rfl
  | cons p m =>
    obtain ⟨k, b⟩ := p
    rw [Memory.wfFrom_cons] at *
    exact ⟨h.trans hm.1, hm.2⟩

/-- An address below every listed one reads as the background. -/
theorem Memory.read_below {m : Memory} : ∀ {lo a : Nat}, Memory.wfFrom lo m = true → a < lo →
    Memory.read m a = Memory.background := by
  induction m with
  | nil => intros; rfl
  | cons p m ih =>
    obtain ⟨k, b⟩ := p
    intro lo a hm ha
    rw [Memory.wfFrom_cons] at hm
    have hk : k ≠ a := by omega
    simp only [Memory.read, if_neg hk]
    exact ih hm.2.2.2 (by omega)

theorem Memory.read_consCell {m : Memory} {a : Nat} (h : Memory.wfFrom (a + 1) m = true) (v : Byte) (b : Nat) :
    Memory.read (Memory.consCell a v m) b = if b = a then v else Memory.read m b := by
  unfold Memory.consCell
  by_cases hb : b = a
  · subst hb
    by_cases hv : v = Memory.background
    · simp [hv, Memory.read_below h]
    · simp [hv, Memory.read]
  · have hab : a ≠ b := Ne.symm hb
    by_cases hv : v = Memory.background <;> simp [hv, Memory.read, hb, hab]

theorem Memory.wfFrom_consCell {m : Memory} {lo a : Nat} (h : Memory.wfFrom (a + 1) m = true) (hlo : lo ≤ a)
    (ha : a < 2 ^ 32) (v : Byte) : Memory.wfFrom lo (Memory.consCell a v m) = true := by
  unfold Memory.consCell
  split
  · exact Memory.wfFrom_mono (by omega) h
  · exact Memory.wfFrom_cons.2 ⟨hlo, ha, ‹_›, h⟩

/-- A read after a write: the value at the address written, every other address as before. -/
theorem Memory.read_write {m : Memory} : ∀ {lo : Nat}, Memory.wfFrom lo m = true → ∀ (a : Nat) (v : Byte) (b : Nat),
    Memory.read (Memory.write m a v) b = if b = a then v else Memory.read m b := by
  induction m with
  | nil => intro lo _ a v b; exact Memory.read_consCell (m := []) rfl v b
  | cons p m ih =>
    obtain ⟨k, c⟩ := p
    intro lo hm a v b
    have h := Memory.wfFrom_cons.1 hm
    unfold Memory.write
    split
    · exact Memory.read_consCell (Memory.wfFrom_cons.2 ⟨by omega, h.2⟩) v b
    · split
      · next hak =>
        subst hak
        rw [Memory.read_consCell h.2.2.2]
        by_cases hb : b = a
        · simp [hb]
        · have : a ≠ b := Ne.symm hb
          simp [hb, Memory.read, this]
      · simp only [Memory.read]
        rw [ih h.2.2.2]
        by_cases hkb : k = b
        · have : b ≠ a := by omega
          simp [hkb, this]
        · simp [hkb]

/-- Every write keeps the canonical form. -/
theorem Memory.wfFrom_write {m : Memory} : ∀ {lo a : Nat}, Memory.wfFrom lo m = true → lo ≤ a → a < 2 ^ 32 →
    ∀ v : Byte, Memory.wfFrom lo (Memory.write m a v) = true := by
  induction m with
  | nil => intro lo a _ hlo ha v; exact Memory.wfFrom_consCell (m := []) rfl hlo ha v
  | cons p m ih =>
    obtain ⟨k, c⟩ := p
    intro lo a hm hlo ha v
    have h := Memory.wfFrom_cons.1 hm
    unfold Memory.write
    split
    · exact Memory.wfFrom_consCell (Memory.wfFrom_cons.2 ⟨by omega, h.2⟩) hlo ha v
    · split
      · next hak =>
        subst hak
        exact Memory.wfFrom_consCell h.2.2.2 hlo ha v
      · exact Memory.wfFrom_cons.2 ⟨h.1, h.2.1, h.2.2.1, ih h.2.2.2 (by omega) ha v⟩

theorem Memory.wf_nil : Memory.wf [] = true := rfl

/-- The byte read after a byte write (R61, R64). -/
theorem Memory.read8_write8 {m : Memory} (h : m.wf = true) (a : Word) (v : Byte) (b : Word) :
    (m.write8 a v).read8 b = if b = a then v else m.read8 b := by
  simp only [Memory.read8, Memory.write8, Memory.read_write h, BitVec.toNat_inj]

theorem Memory.wf_write8 {m : Memory} (h : m.wf = true) (a : Word) (v : Byte) : (m.write8 a v).wf = true :=
  Memory.wfFrom_write h (Nat.zero_le _) a.isLt v

theorem Memory.wf_write16 {m : Memory} (h : m.wf = true) (a : Word) (v : Half) : (m.write16 a v).wf = true :=
  Memory.wf_write8 (Memory.wf_write8 h _ _) _ _

theorem Memory.wf_write32 {m : Memory} (h : m.wf = true) (a : Word) (v : Word) : (m.write32 a v).wf = true :=
  Memory.wf_write8 (Memory.wf_write8 (Memory.wf_write8 (Memory.wf_write8 h _ _) _ _) _ _) _ _

theorem reset_memory_wf : State.reset.mem.wf = true := rfl

/-- Canonical memories that read alike are the same list. -/
theorem Memory.ext_of_wf : ∀ {m m' : Memory} {lo lo' : Nat}, Memory.wfFrom lo m = true → Memory.wfFrom lo' m' = true →
    (∀ a, Memory.read m a = Memory.read m' a) → m = m' := by
  intro m
  induction m with
  | nil =>
    intro m' lo lo' _ h' hr
    cases m' with
    | nil => rfl
    | cons p m' =>
      obtain ⟨k, b⟩ := p
      have h := Memory.wfFrom_cons.1 h'
      exact absurd (by simpa [Memory.read] using (hr k).symm) h.2.2.1
  | cons p m ih =>
    obtain ⟨k, b⟩ := p
    intro m' lo lo' hm h' hr
    have h := Memory.wfFrom_cons.1 hm
    cases m' with
    | nil => exact absurd (by simpa [Memory.read] using hr k) h.2.2.1
    | cons p' m' =>
      obtain ⟨k', b'⟩ := p'
      have g := Memory.wfFrom_cons.1 h'
      have hk : k = k' := by
        rcases Nat.lt_trichotomy k k' with hlt | heq | hgt
        · have e := hr k
          have : k' ≠ k := by omega
          simp only [Memory.read, if_neg this, if_true] at e
          rw [Memory.read_below g.2.2.2 (by omega)] at e
          exact absurd e h.2.2.1
        · exact heq
        · have e := hr k'
          have : k ≠ k' := by omega
          simp only [Memory.read, if_neg this, if_true] at e
          rw [Memory.read_below h.2.2.2 (by omega)] at e
          exact absurd e.symm g.2.2.1
      subst hk
      have hb : b = b' := by simpa [Memory.read] using hr k
      subst hb
      congr 1
      refine ih h.2.2.2 g.2.2.2 fun a => ?_
      by_cases ha : k = a
      · subst ha
        rw [Memory.read_below h.2.2.2 (by omega), Memory.read_below g.2.2.2 (by omega)]
      · simpa [Memory.read, ha] using hr a

end Sys2Proof.Machine
end

