-- ==== Sys2Proof/Laws/State.lean ====
section
/-! SUPPORT. Each field of the state after each named update: one equation per field and update, so that no later proof
unfolds a record update. -/

namespace Sys2Proof.Machine

/-! ## Registers -/

@[simp] theorem State.setCell_regs (s : State) (c : Cell) (v : Word) : (s.setCell c v).regs = s.regs.set c.idx v := rfl
@[simp] theorem State.setCell_cpsr (s : State) (c : Cell) (v : Word) : (s.setCell c v).cpsr = s.cpsr := rfl
@[simp] theorem State.setCell_spsrs (s : State) (c : Cell) (v : Word) : (s.setCell c v).spsrs = s.spsrs := rfl
@[simp] theorem State.setCell_slot (s : State) (c : Cell) (v : Word) : (s.setCell c v).slot = s.slot := rfl
@[simp] theorem State.setCell_mem (s : State) (c : Cell) (v : Word) : (s.setCell c v).mem = s.mem := rfl
@[simp] theorem State.setCell_irq (s : State) (c : Cell) (v : Word) : (s.setCell c v).irq = s.irq := rfl
@[simp] theorem State.setCell_cfg (s : State) (c : Cell) (v : Word) : (s.setCell c v).cfg = s.cfg := rfl
@[simp] theorem State.setCell_now (s : State) (c : Cell) (v : Word) : (s.setCell c v).now = s.now := rfl

@[simp] theorem State.setX_regs (s : State) (i : Reg) (v : Word) :
    (s.setX i v).regs = s.regs.set (cell s.cpsr.m i).idx v := rfl
@[simp] theorem State.setX_cpsr (s : State) (i : Reg) (v : Word) : (s.setX i v).cpsr = s.cpsr := rfl
@[simp] theorem State.setX_spsrs (s : State) (i : Reg) (v : Word) : (s.setX i v).spsrs = s.spsrs := rfl
@[simp] theorem State.setX_slot (s : State) (i : Reg) (v : Word) : (s.setX i v).slot = s.slot := rfl
@[simp] theorem State.setX_mem (s : State) (i : Reg) (v : Word) : (s.setX i v).mem = s.mem := rfl
@[simp] theorem State.setX_irq (s : State) (i : Reg) (v : Word) : (s.setX i v).irq = s.irq := rfl
@[simp] theorem State.setX_cfg (s : State) (i : Reg) (v : Word) : (s.setX i v).cfg = s.cfg := rfl
@[simp] theorem State.setX_now (s : State) (i : Reg) (v : Word) : (s.setX i v).now = s.now := rfl

@[simp] theorem State.setPc_regs (s : State) (v : Word) : (s.setPc v).regs = s.regs.set (Cell.gen 15).idx v := rfl
@[simp] theorem State.setPc_cpsr (s : State) (v : Word) : (s.setPc v).cpsr = s.cpsr := rfl
@[simp] theorem State.setPc_spsrs (s : State) (v : Word) : (s.setPc v).spsrs = s.spsrs := rfl
@[simp] theorem State.setPc_slot (s : State) (v : Word) : (s.setPc v).slot = s.slot := rfl
@[simp] theorem State.setPc_mem (s : State) (v : Word) : (s.setPc v).mem = s.mem := rfl
@[simp] theorem State.setPc_irq (s : State) (v : Word) : (s.setPc v).irq = s.irq := rfl
@[simp] theorem State.setPc_cfg (s : State) (v : Word) : (s.setPc v).cfg = s.cfg := rfl
@[simp] theorem State.setPc_now (s : State) (v : Word) : (s.setPc v).now = s.now := rfl

/-! ## Flags -/

@[simp] theorem State.setFlags_regs (s : State) (f : Flags) : (s.setFlags f).regs = s.regs := rfl
@[simp] theorem State.setFlags_cpsr (s : State) (f : Flags) : (s.setFlags f).cpsr = s.cpsr.withFlags f := rfl
@[simp] theorem State.setFlags_spsrs (s : State) (f : Flags) : (s.setFlags f).spsrs = s.spsrs := rfl
@[simp] theorem State.setFlags_slot (s : State) (f : Flags) : (s.setFlags f).slot = s.slot := rfl
@[simp] theorem State.setFlags_mem (s : State) (f : Flags) : (s.setFlags f).mem = s.mem := rfl
@[simp] theorem State.setFlags_irq (s : State) (f : Flags) : (s.setFlags f).irq = s.irq := rfl
@[simp] theorem State.setFlags_cfg (s : State) (f : Flags) : (s.setFlags f).cfg = s.cfg := rfl
@[simp] theorem State.setFlags_now (s : State) (f : Flags) : (s.setFlags f).now = s.now := rfl

@[simp] theorem State.setFlagsIf_regs (s : State) (b : Bool) (f : Flags) :
    (s.setFlagsIf b f).regs = s.regs := by cases b <;> rfl
@[simp] theorem State.setFlagsIf_cpsr (s : State) (b : Bool) (f : Flags) :
    (s.setFlagsIf b f).cpsr = if b then s.cpsr.withFlags f else s.cpsr := by cases b <;> rfl
@[simp] theorem State.setFlagsIf_spsrs (s : State) (b : Bool) (f : Flags) :
    (s.setFlagsIf b f).spsrs = s.spsrs := by cases b <;> rfl
@[simp] theorem State.setFlagsIf_slot (s : State) (b : Bool) (f : Flags) :
    (s.setFlagsIf b f).slot = s.slot := by cases b <;> rfl
@[simp] theorem State.setFlagsIf_mem (s : State) (b : Bool) (f : Flags) :
    (s.setFlagsIf b f).mem = s.mem := by cases b <;> rfl
@[simp] theorem State.setFlagsIf_irq (s : State) (b : Bool) (f : Flags) :
    (s.setFlagsIf b f).irq = s.irq := by cases b <;> rfl
@[simp] theorem State.setFlagsIf_cfg (s : State) (b : Bool) (f : Flags) :
    (s.setFlagsIf b f).cfg = s.cfg := by cases b <;> rfl
@[simp] theorem State.setFlagsIf_now (s : State) (b : Bool) (f : Flags) :
    (s.setFlagsIf b f).now = s.now := by cases b <;> rfl

@[simp] theorem Psr.withFlags_n {μ : Type} (p : Psr μ) (f : Flags) : (p.withFlags f).n = f.n := rfl
@[simp] theorem Psr.withFlags_z {μ : Type} (p : Psr μ) (f : Flags) : (p.withFlags f).z = f.z := rfl
@[simp] theorem Psr.withFlags_c {μ : Type} (p : Psr μ) (f : Flags) : (p.withFlags f).c = f.c := rfl
@[simp] theorem Psr.withFlags_v {μ : Type} (p : Psr μ) (f : Flags) : (p.withFlags f).v = f.v := rfl
@[simp] theorem Psr.withFlags_i {μ : Type} (p : Psr μ) (fl : Flags) : (p.withFlags fl).i = p.i := rfl
@[simp] theorem Psr.withFlags_f {μ : Type} (p : Psr μ) (fl : Flags) : (p.withFlags fl).f = p.f := rfl
@[simp] theorem Psr.withFlags_t {μ : Type} (p : Psr μ) (fl : Flags) : (p.withFlags fl).t = p.t := rfl
@[simp] theorem Psr.withFlags_m {μ : Type} (p : Psr μ) (fl : Flags) : (p.withFlags fl).m = p.m := rfl
@[simp] theorem Psr.withFlags_flags {μ : Type} (p : Psr μ) (f : Flags) : (p.withFlags f).flags = f := rfl

/-! ## The program counter -/

@[simp] theorem State.branchTo_regs (s : State) (a : Word) :
    (s.branchTo a).regs = s.regs.set (Cell.gen 15).idx (alignFor s.cpsr.t a) := rfl
@[simp] theorem State.branchTo_cpsr (s : State) (a : Word) : (s.branchTo a).cpsr = s.cpsr := rfl
@[simp] theorem State.branchTo_spsrs (s : State) (a : Word) : (s.branchTo a).spsrs = s.spsrs := rfl
@[simp] theorem State.branchTo_slot (s : State) (a : Word) : (s.branchTo a).slot = s.slot := rfl
@[simp] theorem State.branchTo_mem (s : State) (a : Word) : (s.branchTo a).mem = s.mem := rfl
@[simp] theorem State.branchTo_irq (s : State) (a : Word) : (s.branchTo a).irq = s.irq := rfl
@[simp] theorem State.branchTo_cfg (s : State) (a : Word) : (s.branchTo a).cfg = s.cfg := rfl
@[simp] theorem State.branchTo_now (s : State) (a : Word) : (s.branchTo a).now = { s.now with branched := true } := rfl

@[simp] theorem State.exchangeTo_regs (s : State) (a : Word) :
    (s.exchangeTo a).regs = s.regs.set (Cell.gen 15).idx (alignFor (a.getLsbD 0) a) := rfl
@[simp] theorem State.exchangeTo_cpsr (s : State) (a : Word) :
    (s.exchangeTo a).cpsr = { s.cpsr with t := a.getLsbD 0 } := rfl
@[simp] theorem State.exchangeTo_spsrs (s : State) (a : Word) : (s.exchangeTo a).spsrs = s.spsrs := rfl
@[simp] theorem State.exchangeTo_slot (s : State) (a : Word) : (s.exchangeTo a).slot = s.slot := rfl
@[simp] theorem State.exchangeTo_mem (s : State) (a : Word) : (s.exchangeTo a).mem = s.mem := rfl
@[simp] theorem State.exchangeTo_irq (s : State) (a : Word) : (s.exchangeTo a).irq = s.irq := rfl
@[simp] theorem State.exchangeTo_cfg (s : State) (a : Word) : (s.exchangeTo a).cfg = s.cfg := rfl
@[simp] theorem State.exchangeTo_now (s : State) (a : Word) :
    (s.exchangeTo a).now = { s.now with branched := true } := rfl

@[simp] theorem State.writeReg_cpsr (s : State) (i : Reg) (v : Word) :
    (s.writeReg i v).cpsr = s.cpsr := by unfold State.writeReg; split <;> rfl
@[simp] theorem State.writeReg_spsrs (s : State) (i : Reg) (v : Word) :
    (s.writeReg i v).spsrs = s.spsrs := by unfold State.writeReg; split <;> rfl
@[simp] theorem State.writeReg_slot (s : State) (i : Reg) (v : Word) :
    (s.writeReg i v).slot = s.slot := by unfold State.writeReg; split <;> rfl
@[simp] theorem State.writeReg_mem (s : State) (i : Reg) (v : Word) :
    (s.writeReg i v).mem = s.mem := by unfold State.writeReg; split <;> rfl
@[simp] theorem State.writeReg_irq (s : State) (i : Reg) (v : Word) :
    (s.writeReg i v).irq = s.irq := by unfold State.writeReg; split <;> rfl
@[simp] theorem State.writeReg_cfg (s : State) (i : Reg) (v : Word) :
    (s.writeReg i v).cfg = s.cfg := by unfold State.writeReg; split <;> rfl

/-! ## The bus -/

@[simp] theorem State.noteCall_regs (s : State) (c : BusCall) : (s.noteCall c).regs = s.regs := rfl
@[simp] theorem State.noteCall_cpsr (s : State) (c : BusCall) : (s.noteCall c).cpsr = s.cpsr := rfl
@[simp] theorem State.noteCall_spsrs (s : State) (c : BusCall) : (s.noteCall c).spsrs = s.spsrs := rfl
@[simp] theorem State.noteCall_slot (s : State) (c : BusCall) : (s.noteCall c).slot = s.slot := rfl
@[simp] theorem State.noteCall_mem (s : State) (c : BusCall) : (s.noteCall c).mem = s.mem := rfl
@[simp] theorem State.noteCall_irq (s : State) (c : BusCall) : (s.noteCall c).irq = s.irq := rfl
@[simp] theorem State.noteCall_cfg (s : State) (c : BusCall) : (s.noteCall c).cfg = s.cfg := rfl
@[simp] theorem State.noteCall_now (s : State) (c : BusCall) :
    (s.noteCall c).now = { s.now with calls := s.now.calls ++ [c] } := rfl

@[simp] theorem State.busRead_fst (s : State) (w : Width) (a : Word) : (s.busRead w a).1 = s.peek w a := rfl
@[simp] theorem State.busRead_snd_regs (s : State) (w : Width) (a : Word) : ((s.busRead w a).2).regs = s.regs := rfl
@[simp] theorem State.busRead_snd_cpsr (s : State) (w : Width) (a : Word) : ((s.busRead w a).2).cpsr = s.cpsr := rfl
@[simp] theorem State.busRead_snd_spsrs (s : State) (w : Width) (a : Word) : ((s.busRead w a).2).spsrs = s.spsrs := rfl
@[simp] theorem State.busRead_snd_slot (s : State) (w : Width) (a : Word) : ((s.busRead w a).2).slot = s.slot := rfl
@[simp] theorem State.busRead_snd_mem (s : State) (w : Width) (a : Word) : ((s.busRead w a).2).mem = s.mem := rfl
@[simp] theorem State.busRead_snd_irq (s : State) (w : Width) (a : Word) : ((s.busRead w a).2).irq = s.irq := rfl
@[simp] theorem State.busRead_snd_cfg (s : State) (w : Width) (a : Word) : ((s.busRead w a).2).cfg = s.cfg := rfl
@[simp] theorem State.busRead_snd_now (s : State) (w : Width) (a : Word) :
    ((s.busRead w a).2).now = { s.now with calls := s.now.calls ++ [.read w a] } := rfl

@[simp] theorem State.busWrite_regs (s : State) (w : Width) (a v : Word) : (s.busWrite w a v).regs = s.regs := rfl
@[simp] theorem State.busWrite_cpsr (s : State) (w : Width) (a v : Word) : (s.busWrite w a v).cpsr = s.cpsr := rfl
@[simp] theorem State.busWrite_spsrs (s : State) (w : Width) (a v : Word) : (s.busWrite w a v).spsrs = s.spsrs := rfl
@[simp] theorem State.busWrite_slot (s : State) (w : Width) (a v : Word) : (s.busWrite w a v).slot = s.slot := rfl
@[simp] theorem State.busWrite_irq (s : State) (w : Width) (a v : Word) : (s.busWrite w a v).irq = s.irq := rfl
@[simp] theorem State.busWrite_cfg (s : State) (w : Width) (a v : Word) : (s.busWrite w a v).cfg = s.cfg := rfl
@[simp] theorem State.busWrite_now (s : State) (w : Width) (a v : Word) :
    (s.busWrite w a v).now = { s.now with calls := s.now.calls ++ [.write w (storeAddr w a) (storePart w v)] } := rfl

@[simp] theorem State.load_snd_regs (s : State) (k : LoadKind) (a : Word) : ((s.load k a).2).regs = s.regs := rfl
@[simp] theorem State.load_snd_cpsr (s : State) (k : LoadKind) (a : Word) : ((s.load k a).2).cpsr = s.cpsr := rfl
@[simp] theorem State.load_snd_spsrs (s : State) (k : LoadKind) (a : Word) : ((s.load k a).2).spsrs = s.spsrs := rfl
@[simp] theorem State.load_snd_slot (s : State) (k : LoadKind) (a : Word) : ((s.load k a).2).slot = s.slot := rfl
@[simp] theorem State.load_snd_mem (s : State) (k : LoadKind) (a : Word) : ((s.load k a).2).mem = s.mem := rfl
@[simp] theorem State.load_snd_irq (s : State) (k : LoadKind) (a : Word) : ((s.load k a).2).irq = s.irq := rfl
@[simp] theorem State.load_snd_cfg (s : State) (k : LoadKind) (a : Word) : ((s.load k a).2).cfg = s.cfg := rfl
@[simp] theorem State.load_snd_now (s : State) (k : LoadKind) (a : Word) :
    ((s.load k a).2).now = { s.now with calls := s.now.calls ++ [.read (k.width a) a] } := rfl

@[simp] theorem State.load_fst (s : State) (k : LoadKind) (a : Word) :
    (s.load k a).1 = k.extend a (s.peek (k.width a) a) := rfl

/-! ## Exceptions -/

@[simp] theorem State.exceptionEntry_regs (s : State) (m : Mode) (ret vec : Word) :
    (s.exceptionEntry m ret vec).regs = (s.regs.set (cell m 14).idx ret).set (Cell.gen 15).idx (wordAddr vec) := rfl
@[simp] theorem State.exceptionEntry_cpsr (s : State) (m : Mode) (ret vec : Word) :
    (s.exceptionEntry m ret vec).cpsr = { s.cpsr with m := m, i := true, t := false } := rfl
@[simp] theorem State.exceptionEntry_spsrs (s : State) (m : Mode) (ret vec : Word) :
    (s.exceptionEntry m ret vec).spsrs = s.spsrs.put m s.cpsr.toSpsr := rfl
@[simp] theorem State.exceptionEntry_slot (s : State) (m : Mode) (ret vec : Word) :
    (s.exceptionEntry m ret vec).slot = s.slot := rfl
@[simp] theorem State.exceptionEntry_mem (s : State) (m : Mode) (ret vec : Word) :
    (s.exceptionEntry m ret vec).mem = s.mem := rfl
@[simp] theorem State.exceptionEntry_irq (s : State) (m : Mode) (ret vec : Word) :
    (s.exceptionEntry m ret vec).irq = s.irq := rfl
@[simp] theorem State.exceptionEntry_cfg (s : State) (m : Mode) (ret vec : Word) :
    (s.exceptionEntry m ret vec).cfg = s.cfg := rfl
@[simp] theorem State.exceptionEntry_now (s : State) (m : Mode) (ret vec : Word) :
    (s.exceptionEntry m ret vec).now = { s.now with branched := true } := rfl

/-! ## The ends of a step -/

@[simp] theorem State.openStep_regs (s : State) : (s.openStep).regs = s.regs := rfl
@[simp] theorem State.openStep_cpsr (s : State) : (s.openStep).cpsr = s.cpsr := rfl
@[simp] theorem State.openStep_spsrs (s : State) : (s.openStep).spsrs = s.spsrs := rfl
@[simp] theorem State.openStep_slot (s : State) : (s.openStep).slot = s.slot := rfl
@[simp] theorem State.openStep_mem (s : State) : (s.openStep).mem = s.mem := rfl
@[simp] theorem State.openStep_irq (s : State) : (s.openStep).irq = s.irq := rfl
@[simp] theorem State.openStep_cfg (s : State) : (s.openStep).cfg = s.cfg := rfl
@[simp] theorem State.openStep_now (s : State) :
    (s.openStep).now = { ia := s.pc, branched := false, calls := [] } := rfl

@[simp] theorem State.advance_regs (s : State) :
    (s.advance).regs = s.regs.set (Cell.gen 15).idx (s.pc + instrBytes s.cpsr.t) := rfl
@[simp] theorem State.advance_cpsr (s : State) : (s.advance).cpsr = s.cpsr := rfl
@[simp] theorem State.advance_spsrs (s : State) : (s.advance).spsrs = s.spsrs := rfl
@[simp] theorem State.advance_slot (s : State) : (s.advance).slot = s.slot := rfl
@[simp] theorem State.advance_mem (s : State) : (s.advance).mem = s.mem := rfl
@[simp] theorem State.advance_irq (s : State) : (s.advance).irq = s.irq := rfl
@[simp] theorem State.advance_cfg (s : State) : (s.advance).cfg = s.cfg := rfl
@[simp] theorem State.advance_now (s : State) : (s.advance).now = s.now := rfl

@[simp] theorem State.refill_regs (s : State) : (s.refill).regs = s.regs := rfl
@[simp] theorem State.refill_cpsr (s : State) : (s.refill).cpsr = s.cpsr := rfl
@[simp] theorem State.refill_spsrs (s : State) : (s.refill).spsrs = s.spsrs := rfl
@[simp] theorem State.refill_slot (s : State) : (s.refill).slot = s.fetched := rfl
@[simp] theorem State.refill_mem (s : State) : (s.refill).mem = s.mem := rfl
@[simp] theorem State.refill_irq (s : State) : (s.refill).irq = s.irq := rfl
@[simp] theorem State.refill_cfg (s : State) : (s.refill).cfg = s.cfg := rfl

/-! ## The environment -/

@[simp] theorem State.environment_regs (s : State) (e : EnvAction) :
    (s.environment e).regs = s.regs := by cases e <;> rfl
@[simp] theorem State.environment_cpsr (s : State) (e : EnvAction) :
    (s.environment e).cpsr = s.cpsr := by cases e <;> rfl
@[simp] theorem State.environment_spsrs (s : State) (e : EnvAction) :
    (s.environment e).spsrs = s.spsrs := by cases e <;> rfl
@[simp] theorem State.environment_slot (s : State) (e : EnvAction) :
    (s.environment e).slot = s.slot := by cases e <;> rfl
@[simp] theorem State.environment_cfg (s : State) (e : EnvAction) : (s.environment e).cfg = s.cfg := by cases e <;> rfl
@[simp] theorem State.environment_now (s : State) (e : EnvAction) : (s.environment e).now = s.now := by cases e <;> rfl

end Sys2Proof.Machine
end

