-- ==== Sys2Proof/Laws/Registers.lean ====
section
/-! SUPPORT. Cells and views: which cells differ (R22, R23), what a register read gives after a write, and how r15 stands
apart. -/

namespace Sys2Proof.Machine

theorem Cell.idx_injective : Function.Injective Cell.idx := by
  intro c d h
  cases c <;> cases d <;> simp [Cell.idx, Fin.ext_iff] at h ⊢ <;> omega

@[simp] theorem Cell.idx_inj {c d : Cell} : c.idx = d.idx ↔ c = d := Cell.idx_injective.eq_iff

/-- A cell read after a cell write. -/
theorem State.getCell_setCell (s : State) (c d : Cell) (v : Word) :
    (s.setCell c v).getCell d = if d = c then v else s.getCell d := by
  change (s.regs.set c.idx v)[d.idx.val] = if d = c then v else s.regs[d.idx.val]
  rw [Vector.getElem_set]
  simp only [Fin.val_inj, Cell.idx_inj, eq_comm]

@[simp] theorem State.getCell_setCell_self (s : State) (c : Cell) (v : Word) : (s.setCell c v).getCell c = v := by
  simp [State.getCell_setCell]

theorem State.getCell_setCell_ne (s : State) {c d : Cell} (h : d ≠ c) (v : Word) :
    (s.setCell c v).getCell d = s.getCell d := by
  simp [State.getCell_setCell, h]

/-- A cell read sees the registers alone. -/
theorem State.getCell_congr {s t : State} (h : s.regs = t.regs) (c : Cell) : s.getCell c = t.getCell c := by
  simp [State.getCell, h]

@[simp] theorem cell_fifteen (m : Mode) : cell m 15 = .gen 15 := by cases m <;> rfl

/-- Within one view distinct indices are distinct cells (R23). -/
theorem cell_injective (m : Mode) : Function.Injective (cell m) := by
  intro i j
  cases m <;> revert i j <;> decide

@[simp] theorem cell_inj {m : Mode} {i j : Reg} : cell m i = cell m j ↔ i = j := (cell_injective m).eq_iff

/-- No view but that of index 15 reaches r15. -/
theorem cell_ne_pc {i : Reg} (h : i ≠ 15) (m : Mode) : cell m i ≠ .gen 15 := by
  rw [← cell_fifteen m]
  exact fun e => h (cell_injective m e)

@[simp] theorem lowReg_ne_fifteen (i : LowReg) : lowReg i ≠ 15 := by revert i; decide

/-- Every mode sees the low registers in the general set (R23, R320). -/
theorem cell_lowReg (m : Mode) (i : LowReg) : cell m (lowReg i) = .gen (lowReg i) := by
  cases m <;> revert i <;> decide

/-- USER and SYSTEM see the general set (R23). -/
theorem cell_user (i : Reg) : cell .user i = .gen i := by revert i; decide

theorem cell_system (i : Reg) : cell .system i = .gen i := by revert i; decide

/-- Only FIQ banks r8 to r12 (R23). -/
theorem cell_below_thirteen {m : Mode} (hm : m ≠ .fiq) {i : Reg} (hi : i.val ≤ 12) : cell m i = .gen i := by
  revert i
  cases m <;> first | exact absurd rfl hm | decide

theorem State.x_setX (s : State) (i j : Reg) (v : Word) : (s.setX i v).x j = if j = i then v else s.x j := by
  simp only [State.x, State.setX, State.mode, State.setCell_cpsr, State.getCell_setCell, cell_inj]

theorem State.pc_setX (s : State) {i : Reg} (h : i ≠ 15) (v : Word) : (s.setX i v).pc = s.pc := by
  simp only [State.pc, State.setX]
  exact State.getCell_setCell_ne _ (cell_ne_pc h _).symm _

@[simp] theorem State.pc_setPc (s : State) (v : Word) : (s.setPc v).pc = v := by
  simp [State.pc, State.setPc]

theorem State.getCell_setX (s : State) (i : Reg) (v : Word) (c : Cell) :
    (s.setX i v).getCell c = if c = cell s.mode i then v else s.getCell c := s.getCell_setCell _ _ _

theorem State.getCell_setPc (s : State) (v : Word) (c : Cell) :
    (s.setPc v).getCell c = if c = .gen 15 then v else s.getCell c := s.getCell_setCell _ _ _

@[simp] theorem State.getCell_setFlags (s : State) (f : Flags) (c : Cell) : (s.setFlags f).getCell c = s.getCell c := rfl

@[simp] theorem State.getCell_setFlagsIf (s : State) (b : Bool) (f : Flags) (c : Cell) :
    (s.setFlagsIf b f).getCell c = s.getCell c := by cases b <;> rfl

@[simp] theorem State.getCell_noteCall (s : State) (k : BusCall) (c : Cell) : (s.noteCall k).getCell c = s.getCell c := rfl

@[simp] theorem State.getCell_busWrite (s : State) (w : Width) (a v : Word) (c : Cell) :
    (s.busWrite w a v).getCell c = s.getCell c := rfl

@[simp] theorem State.getCell_load (s : State) (k : LoadKind) (a : Word) (c : Cell) :
    (s.load k a).2.getCell c = s.getCell c := rfl

@[simp] theorem State.getCell_refill (s : State) (c : Cell) : s.refill.getCell c = s.getCell c := rfl

@[simp] theorem State.getCell_openStep (s : State) (c : Cell) : s.openStep.getCell c = s.getCell c := rfl

theorem State.getCell_branchTo (s : State) (a : Word) (c : Cell) :
    (s.branchTo a).getCell c = if c = .gen 15 then alignFor s.cpsr.t a else s.getCell c :=
  s.getCell_setPc _ _

@[simp] theorem State.pc_branchTo (s : State) (a : Word) : (s.branchTo a).pc = alignFor s.cpsr.t a := by
  simp [State.pc, State.getCell_branchTo]

theorem State.getCell_exchangeTo (s : State) (a : Word) (c : Cell) :
    (s.exchangeTo a).getCell c = if c = .gen 15 then alignFor (a.getLsbD 0) a else s.getCell c :=
  State.getCell_setPc _ _ _

theorem State.getCell_exceptionEntry (s : State) (m : Mode) (ret vec : Word) (c : Cell) :
    (s.exceptionEntry m ret vec).getCell c =
      if c = .gen 15 then wordAddr vec else if c = cell m 14 then ret else s.getCell c := by
  unfold State.exceptionEntry
  rw [State.getCell_branchTo, State.getCell_setX]
  rfl

theorem State.getCell_advance (s : State) (c : Cell) :
    s.advance.getCell c = if c = .gen 15 then s.pc + instrBytes s.cpsr.t else s.getCell c :=
  s.getCell_setPc _ _

end Sys2Proof.Machine
end

