-- ==== Sys2Proof/Laws/Bus.lean ====
section
/-! SUPPORT. The bus: which bytes a write of each width changes and to what, that it keeps memory canonical, and the
alignment of addresses. -/

namespace Sys2Proof.Machine

open Sys2Proof.Claims

/-! ## Alignment -/

theorem halfAddr_toNat (a : Word) : (halfAddr a).toNat = a.toNat / 2 * 2 := by
  have h : a &&& ~~~1#32 = (a >>> 1) <<< 1 := by
    ext i hi
    simp only [BitVec.getElem_and, BitVec.getElem_not, BitVec.getElem_shiftLeft,
      BitVec.getElem_one]
    by_cases h0 : i = 0
    · simp [h0]
    · have : ¬i < 1 := by omega
      simp [h0, this, Nat.add_sub_cancel' (by omega : 1 ≤ i), BitVec.getLsbD_eq_getElem hi]
  have := a.isLt
  rw [halfAddr, h]
  simp [BitVec.toNat_shiftLeft, BitVec.toNat_ushiftRight, Nat.shiftLeft_eq, Nat.shiftRight_eq_div_pow]
  omega

theorem wordAddr_toNat (a : Word) : (wordAddr a).toNat = a.toNat / 4 * 4 := by
  have h : a &&& ~~~3#32 = (a >>> 2) <<< 2 := by
    ext i hi
    have h3 : (3#32).getLsbD i = decide (i < 2) :=
      (by decide : ∀ j : Fin 32, (3#32).getLsbD j.val = decide (j.val < 2)) ⟨i, hi⟩
    rw [BitVec.getLsbD_eq_getElem hi] at h3
    simp only [BitVec.getElem_and, BitVec.getElem_not, BitVec.getElem_shiftLeft, h3]
    by_cases h0 : i < 2
    · simp [h0]
    · simp [h0, Nat.add_sub_cancel' (by omega : 2 ≤ i), BitVec.getLsbD_eq_getElem hi]
  have := a.isLt
  rw [wordAddr, h]
  simp [BitVec.toNat_shiftLeft, BitVec.toNat_ushiftRight, Nat.shiftLeft_eq, Nat.shiftRight_eq_div_pow]
  omega

@[simp] theorem halfAddr_halfAddr (a : Word) : halfAddr (halfAddr a) = halfAddr a := by
  apply BitVec.eq_of_toNat_eq
  simp only [halfAddr_toNat]
  omega

@[simp] theorem wordAddr_wordAddr (a : Word) : wordAddr (wordAddr a) = wordAddr a := by
  apply BitVec.eq_of_toNat_eq
  simp only [wordAddr_toNat]
  omega

@[simp] theorem alignFor_alignFor (b : Bool) (a : Word) : alignFor b (alignFor b a) = alignFor b a := by
  cases b <;> simp [alignFor]

/-- A word-aligned address is halfword-aligned. -/
@[simp] theorem halfAddr_wordAddr (a : Word) : halfAddr (wordAddr a) = wordAddr a := by
  apply BitVec.eq_of_toNat_eq
  simp only [halfAddr_toNat, wordAddr_toNat]
  omega

/-- The advance keeps alignment (R28). -/
theorem alignFor_advance (b : Bool) {a : Word} (h : alignFor b a = a) :
    alignFor b (a + instrBytes b) = a + instrBytes b := by
  have hn := congrArg BitVec.toNat h
  apply BitVec.eq_of_toNat_eq
  have := a.isLt
  have h2 : (2 : Word).toNat = 2 := rfl
  have h4 : (4 : Word).toNat = 4 := rfl
  cases b <;> simp only [alignFor, instrBytes, if_true, if_false, halfAddr_toNat, wordAddr_toNat, BitVec.toNat_add,
    Bool.false_eq_true, h2, h4] at hn ⊢ <;> omega

/-! ## Writes -/

theorem Memory.read8_write16 {m : Memory} (h : m.wf = true) (a : Word) (v : Half) (b : Word) :
    (m.write16 a v).read8 b = if b = halfAddr a + 1 then v.extractLsb' 8 8
      else if b = halfAddr a then v.extractLsb' 0 8 else m.read8 b := by
  simp only [Memory.write16, Memory.read8_write8 (Memory.wf_write8 h _ _), Memory.read8_write8 h]

theorem Memory.read8_write32 {m : Memory} (h : m.wf = true) (a : Word) (v : Word) (b : Word) :
    (m.write32 a v).read8 b = if b = wordAddr a + 3 then v.extractLsb' 24 8
      else if b = wordAddr a + 2 then v.extractLsb' 16 8
      else if b = wordAddr a + 1 then v.extractLsb' 8 8
      else if b = wordAddr a then v.extractLsb' 0 8 else m.read8 b := by
  have h1 := Memory.wf_write8 h (wordAddr a) (v.extractLsb' 0 8)
  have h2 := Memory.wf_write8 h1 (wordAddr a + 1) (v.extractLsb' 8 8)
  have h3 := Memory.wf_write8 h2 (wordAddr a + 2) (v.extractLsb' 16 8)
  simp only [Memory.write32, Memory.read8_write8 h3, Memory.read8_write8 h2, Memory.read8_write8 h1,
    Memory.read8_write8 h]

theorem State.wf_busWrite {s : State} (h : s.mem.wf = true) (w : Width) (a v : Word) :
    (s.busWrite w a v).mem.wf = true := by
  cases w
  · exact Memory.wf_write8 h _ _
  · exact Memory.wf_write16 h _ _
  · exact Memory.wf_write32 h _ _

/-- Where a byte lies from a start: at a distance below four, or at none. -/
theorem byte_distance (b c : Word) :
    (b = c ∧ (b - c).toNat = 0) ∨ (b = c + 1 ∧ (b - c).toNat = 1) ∨ (b = c + 2 ∧ (b - c).toNat = 2) ∨
      (b = c + 3 ∧ (b - c).toNat = 3) ∨ (3 < (b - c).toNat ∧ b ≠ c ∧ b ≠ c + 1 ∧ b ≠ c + 2 ∧ b ≠ c + 3) := by
  have hb := b.isLt
  have hc := c.isLt
  have e1 : (1 : Word).toNat = 1 := rfl
  have e2 : (2 : Word).toNat = 2 := rfl
  have e3 : (3 : Word).toNat = 3 := rfl
  simp only [ne_eq, ← BitVec.toNat_inj, BitVec.toNat_add, BitVec.toNat_sub, e1, e2, e3]
  omega

/-- The bytes a write changes, and to what (R64 to R66, R69). -/
theorem State.read8_busWrite {s : State} (h : s.mem.wf = true) (w : Width) (a v b : Word) :
    (s.busWrite w a v).mem.read8 b =
      if (b - storeAddr w a).toNat < widthBytes w then v.extractLsb' (8 * (b - storeAddr w a).toNat) 8
      else s.mem.read8 b := by
  have hx : ∀ k n, k + 8 ≤ n → (v.extractLsb' 0 n).extractLsb' k 8 = v.extractLsb' k 8 := by
    intro k n hk
    ext i hi
    simp [show k + i < n by omega]
  cases w
  · show (s.mem.write8 a _).read8 b = if (b - a).toNat < 1 then v.extractLsb' (8 * (b - a).toNat) 8 else s.mem.read8 b
    rw [Memory.read8_write8 h]
    rcases byte_distance b a with ⟨e, d⟩ | ⟨e, d⟩ | ⟨e, d⟩ | ⟨e, d⟩ | ⟨d, e, -⟩
    · simp [e]
    · have : b ≠ a := fun e' => by simp [e'] at d
      simp only [d, if_neg this]
      rfl
    · have : b ≠ a := fun e' => by simp [e'] at d
      simp only [d, if_neg this]
      rfl
    · have : b ≠ a := fun e' => by simp [e'] at d
      simp only [d, if_neg this]
      rfl
    · rw [if_neg e, if_neg (by omega)]
  · show (s.mem.write16 a _).read8 b = if (b - halfAddr a).toNat < 2 then
      v.extractLsb' (8 * (b - halfAddr a).toNat) 8 else s.mem.read8 b
    rw [Memory.read8_write16 h, hx 8 16 (by omega), hx 0 16 (by omega)]
    rcases byte_distance b (halfAddr a) with ⟨e, d⟩ | ⟨e, d⟩ | ⟨e, d⟩ | ⟨e, d⟩ | ⟨d, e, e1, -⟩
    · have : b ≠ halfAddr a + 1 := fun e' => by rw [e', BitVec.add_comm, BitVec.add_sub_cancel] at d; cases d
      simp only [d, if_neg this, if_pos e]
      rfl
    · simp only [d, if_pos e]
      rfl
    · have h1 : b ≠ halfAddr a + 1 := fun e' => by rw [e', BitVec.add_comm, BitVec.add_sub_cancel] at d; cases d
      have h0 : b ≠ halfAddr a := fun e' => by simp [e'] at d
      simp only [d, if_neg h1, if_neg h0]
      rfl
    · have h1 : b ≠ halfAddr a + 1 := fun e' => by rw [e', BitVec.add_comm, BitVec.add_sub_cancel] at d; cases d
      have h0 : b ≠ halfAddr a := fun e' => by simp [e'] at d
      simp only [d, if_neg h1, if_neg h0]
      rfl
    · rw [if_neg e1, if_neg e, if_neg (by omega)]
  · show (s.mem.write32 a v).read8 b = if (b - wordAddr a).toNat < 4 then
      v.extractLsb' (8 * (b - wordAddr a).toNat) 8 else s.mem.read8 b
    rw [Memory.read8_write32 h]
    have ne : ∀ i j : Word, i ≠ j → b = wordAddr a + i → b ≠ wordAddr a + j := fun i j hij e e' =>
      hij (by simpa using e.symm.trans e')
    have ne0 : ∀ j : Word, j ≠ 0 → b = wordAddr a → b ≠ wordAddr a + j := fun j hj e e' =>
      hj (by rw [e] at e'; simpa using e'.symm)
    rcases byte_distance b (wordAddr a) with ⟨e, d⟩ | ⟨e, d⟩ | ⟨e, d⟩ | ⟨e, d⟩ | ⟨d, e0, e1, e2, e3⟩
    · simp only [d, if_neg (ne0 3 (by decide) e), if_neg (ne0 2 (by decide) e), if_neg (ne0 1 (by decide) e), if_pos e]
      rfl
    · simp only [d, if_neg (ne 1 3 (by decide) e), if_neg (ne 1 2 (by decide) e), if_pos e]
      rfl
    · simp only [d, if_neg (ne 2 3 (by decide) e), if_pos e]
      rfl
    · simp only [d, if_pos e]
      rfl
    · rw [if_neg e3, if_neg e2, if_neg e1, if_neg e0, if_neg (by omega)]

/-- A write leaves every byte outside the stored ones alone. -/
theorem State.read8_busWrite_outside {s : State} (h : s.mem.wf = true) {w : Width} {a b : Word} (v : Word)
    (hb : ¬Stored w a b) : (s.busWrite w a v).mem.read8 b = s.mem.read8 b := by
  rw [State.read8_busWrite h]
  exact if_neg hb

/-- The stored bytes, low byte first. -/
theorem State.read8_busWrite_inside {s : State} (h : s.mem.wf = true) (w : Width) (a v : Word) {k : Nat}
    (hk : k < widthBytes w) :
    (s.busWrite w a v).mem.read8 (storeAddr w a + BitVec.ofNat 32 k) = v.extractLsb' (8 * k) 8 := by
  have h4 : widthBytes w ≤ 4 := by cases w <;> simp [widthBytes]
  have e : (storeAddr w a + BitVec.ofNat 32 k - storeAddr w a).toNat = k := by
    rw [BitVec.add_comm, BitVec.add_sub_cancel, BitVec.toNat_ofNat]
    exact Nat.mod_eq_of_lt (by omega)
  rw [State.read8_busWrite h, e, if_pos hk]

/-- The memory effect of a store, whole. -/
theorem State.storedBytes_busWrite {s : State} (h : s.mem.wf = true) (w : Width) (a v : Word) :
    StoredBytes s (s.busWrite w a v) w a v :=
  ⟨fun _ hk => State.read8_busWrite_inside h w a v hk, fun _ hb => State.read8_busWrite_outside h v hb⟩

end Sys2Proof.Machine
end

