-- ==== Sys2Proof/Laws/Step.lean ====
section
/-! SUPPORT. The condition check, taking an exception and returning from one, and what one step can be: each operation's
one lemma. -/

namespace Sys2Proof.Machine

open Sys2Proof.Claims

/-! ## The condition check -/

theorem State.ifCond_pass {s : State} {c : Cond} (h : Passes c s) (body : Answer) : s.ifCond c body = body := by
  unfold State.ifCond
  exact if_pos h

theorem State.ifCond_fail {s : State} {c : Cond} (h : ¬Passes c s) (body : Answer) : s.ifCond c body = .next s := by
  unfold State.ifCond
  exact if_neg h

/-- What a conditional body can answer. -/
theorem State.ifCond_next {s t : State} {c : Cond} {body : Answer} (h : s.ifCond c body = .next t) :
    (Passes c s ∧ body = .next t) ∨ (¬Passes c s ∧ t = s) := by
  by_cases hc : Passes c s
  · exact .inl ⟨hc, (State.ifCond_pass hc body).symm.trans h⟩
  · rw [State.ifCond_fail hc] at h
    cases h
    exact .inr ⟨hc, rfl⟩

/-! ## Saved status -/

theorem Mode.ofBits_bits (m : Mode) : Mode.ofBits m.bits = some m := by cases m <;> rfl

theorem Mode.bits_of_ofBits {b : BitVec 5} {m : Mode} (h : Mode.ofBits b = some m) : m.bits = b := by
  revert m b
  decide

theorem Spsrs.get?_put_self (p : Spsrs) {m : Mode} (h : m.hasSpsr = true) (v : Spsr) : (p.put m v).get? m = some v := by
  cases m <;> first | rfl | cases h

theorem Spsrs.get?_put_ne (p : Spsrs) {m m' : Mode} (h : m' ≠ m) (v : Spsr) : (p.put m v).get? m' = p.get? m' := by
  cases m <;> cases m' <;> first | rfl | exact absurd rfl h

theorem Psr.toCpsr?_toSpsr (p : Cpsr) : p.toSpsr.toCpsr? = some p := by
  simp only [Psr.toCpsr?, Psr.toSpsr, Mode.ofBits_bits, Option.map_some]

theorem Psr.toCpsr?_eq_none {p : Spsr} : p.toCpsr? = none ↔ Mode.ofBits p.m = none := by
  simp only [Psr.toCpsr?, Option.map_eq_none_iff]

theorem Psr.toSpsr_of_toCpsr? {p : Spsr} {c : Cpsr} (h : p.toCpsr? = some c) : c.toSpsr = p := by
  simp only [Psr.toCpsr?, Option.map_eq_some_iff] at h
  obtain ⟨m, hm, rfl⟩ := h
  simp only [Psr.toSpsr, Mode.bits_of_ofBits hm]

/-- The recognised values are the seven numbers of R31. -/
theorem Mode.ofBits_isSome_iff (b : BitVec 5) : (Mode.ofBits b).isSome = true ↔ b.toNat ∈ modeNumbers := by
  revert b
  decide

/-- A mode's encoding is its number (R31). -/
@[simp] theorem Mode.toNat_bits (m : Mode) : m.bits.toNat = modeNumber m := by
  cases m <;> rfl

/-- `CPSR <- SPSR` where it has a meaning (R35, R164, R229). -/
theorem State.restoreCpsr_of_restorable {s : State} (h : Restorable s) :
    ∃ c : Cpsr, s.restoreCpsr = some { s with cpsr := c } ∧ RestoredCpsr s { s with cpsr := c } := by
  cases hg : s.spsrs.get? s.cpsr.m with
  | none =>
    refine ⟨s.cpsr, ?_, fun p hp => ?_, fun _ => rfl⟩
    · simp only [State.restoreCpsr, State.mode, hg]
    · rw [hg] at hp
      cases hp
  | some p =>
    cases hc : p.toCpsr? with
    | none =>
      have := (Mode.ofBits_isSome_iff p.m).2 (h p hg)
      rw [Psr.toCpsr?_eq_none] at hc
      rw [hc] at this
      cases this
    | some c =>
      refine ⟨c, ?_, fun q hq => ?_, fun hn => ?_⟩
      · simp only [State.restoreCpsr, State.mode, hg, hc, Option.map_some]
      · rw [hg] at hq
        cases hq
        exact Psr.toSpsr_of_toCpsr? hc
      · rw [hg] at hn
        cases hn

theorem State.restoreCpsr_of_not_restorable {s : State} (h : ¬Restorable s) : s.restoreCpsr = none := by
  simp only [Restorable, ← Mode.ofBits_isSome_iff, not_forall, Bool.not_eq_true, Option.isSome_eq_false_iff, Option.isNone_iff_eq_none] at h
  obtain ⟨p, hp, hn⟩ := h
  simp only [State.restoreCpsr, State.mode, hp, Psr.toCpsr?_eq_none.2 hn, Option.map_none]

/-- What a restore can answer: only the CPSR changes, and in USER and SYSTEM mode nothing does (R35). -/
theorem State.afterRestore_next {s t : State} {k : State → State} (h : s.afterRestore k = .next t) :
    ∃ c : Cpsr, t = k { s with cpsr := c } ∧ RestoredCpsr s { s with cpsr := c } := by
  by_cases hr : Restorable s
  · obtain ⟨c, hc, hc'⟩ := State.restoreCpsr_of_restorable hr
    simp only [State.afterRestore, hc] at h
    cases h
    exact ⟨c, rfl, hc'⟩
  · simp only [State.afterRestore, State.restoreCpsr_of_not_restorable hr] at h
    cases h

/-! ## Taking an exception -/

/-- The whole of an exception entry (R459). -/
theorem State.entered_exceptionEntry (s : State) {m : Mode} (ret : Word) {vec : Word} (hm : m.hasSpsr = true)
    (hv : wordAddr vec = vec) : Entered s (s.exceptionEntry m ret vec) m ret vec where
  flags := ⟨rfl, rfl, rfl, rfl⟩
  control := ⟨rfl, rfl, rfl, rfl⟩
  saved := Spsrs.get?_put_self _ hm _
  otherSaved := fun _ h => Spsrs.get?_put_ne _ h _
  link := by rw [State.getCell_exceptionEntry, if_neg (cell_ne_pc (by decide) m), if_pos rfl]
  pc := by rw [State.pc, State.getCell_exceptionEntry, if_pos rfl, hv]
  cells := fun c h14 hpc => by rw [State.getCell_exceptionEntry, if_neg hpc, if_neg h14]
  memory := rfl
  inputs := ⟨rfl, rfl⟩

/-- The undefined route, under both policies (R308, R309). -/
theorem State.undefinedTaken_undefinedRoute (s : State) : UndefinedTaken s s.undefinedRoute := by
  refine ⟨fun h => ⟨s.takeUndefined, ?_, ?_, rfl, rfl⟩, fun h => ?_⟩
  · simp only [State.undefinedRoute, h]
  · exact State.entered_exceptionEntry s s.nextInstr rfl (by decide)
  · simp only [State.undefinedRoute, h]

/-! ## One step -/

theorem State.irqTaken_iff (s : State) : s.irqTaken = true ↔ IrqDue s := by
  simp [State.irqTaken, IrqDue, and_assoc]

/-- The opening of a step: `ia`, no branch, no bus call, r15 advanced (R432, R433). -/
theorem State.begun_advance (s : State) : Begun s s.openStep.advance := by
  refine ⟨?_, fun c hc => ?_, rfl, rfl, rfl, rfl, rfl, rfl, rfl⟩
  · exact State.pc_setPc _ _
  · rw [State.getCell_advance, if_neg hc]
    rfl

/-- The refill (R436). -/
theorem State.refilled_refill (t : State) : Refilled t t.refill := ⟨rfl, rfl, rfl, rfl, rfl, rfl, rfl, rfl, rfl, rfl, rfl⟩

theorem step_of_irqDue {s : State} (h : IrqDue s) : step s = .next s.openStep.takeIrq.refill := by
  simp only [step, s.irqTaken_iff.2 h, if_true]

theorem step_of_decode_ok {s : State} {i : Instr} (h : ¬IrqDue s) (hd : decode (slotWord s) = .ok i) :
    step s = finishStep (exec i s.openStep.advance) := by
  have hi : s.irqTaken = false := Bool.eq_false_iff.2 fun e => h (s.irqTaken_iff.1 e)
  have hd' : decode s.slotCode = .ok i := hd
  simp only [step, hi, hd', Bool.false_eq_true, if_false]

theorem step_of_decode_error {s : State} {why : Reject} (h : ¬IrqDue s) (hd : decode (slotWord s) = .error why) :
    step s = finishStep (s.openStep.advance.undecoded why) := by
  have hi : s.irqTaken = false := Bool.eq_false_iff.2 fun e => h (s.irqTaken_iff.1 e)
  have hd' : decode s.slotCode = .error why := hd
  simp only [step, hi, hd', Bool.false_eq_true, if_false]

theorem finishStep_next {o : Answer} {t : State} (h : finishStep o = .next t) : ∃ u, o = .next u ∧ t = u.refill := by
  cases o with
  | next u =>
    cases h
    exact ⟨u, rfl, rfl⟩
  | fault r => cases h
  | refused r => cases h

/-- Everything a step that answers a next state can have been: an IRQ entry, an instruction, or a word that is none. -/
theorem step_next {s t : State} (h : step s = .next t) : ∃ u : State, t = u.refill ∧
    ((IrqDue s ∧ u = s.openStep.takeIrq) ∨
      (¬IrqDue s ∧ ∃ i, decode (slotWord s) = .ok i ∧ exec i s.openStep.advance = .next u) ∨
      (¬IrqDue s ∧ ∃ why, decode (slotWord s) = .error why ∧ s.openStep.advance.undecoded why = .next u)) := by
  by_cases hi : IrqDue s
  · rw [step_of_irqDue hi] at h
    cases h
    exact ⟨_, rfl, .inl ⟨hi, rfl⟩⟩
  · cases hd : decode (slotWord s) with
    | ok i =>
      rw [step_of_decode_ok hi hd] at h
      obtain ⟨u, hu, e⟩ := finishStep_next h
      exact ⟨u, e, .inr (.inl ⟨hi, i, rfl, hu⟩)⟩
    | error why =>
      rw [step_of_decode_error hi hd] at h
      obtain ⟨u, hu, e⟩ := finishStep_next h
      exact ⟨u, e, .inr (.inr ⟨hi, why, rfl, hu⟩)⟩

end Sys2Proof.Machine
end

