-- ==== Sys2Proof/Laws/Transfer.lean ====
section
/-! SUPPORT. What a load yields, by the bytes it reads (R63, R69, R70). -/

namespace Sys2Proof.Machine

open Sys2Proof.Claims

/-- The bytes of a word put together from bytes. -/
theorem extractLsb'_four (b0 b1 b2 b3 : Byte) :
    (b3 ++ b2 ++ b1 ++ b0 : Word).extractLsb' 0 8 = b0 ∧ (b3 ++ b2 ++ b1 ++ b0 : Word).extractLsb' 8 8 = b1 ∧
    (b3 ++ b2 ++ b1 ++ b0 : Word).extractLsb' 16 8 = b2 ∧ (b3 ++ b2 ++ b1 ++ b0 : Word).extractLsb' 24 8 = b3 := by
  refine ⟨?_, ?_, ?_, ?_⟩ <;>
  · apply BitVec.eq_of_getLsbD_eq
    intro k hk
    simp only [BitVec.getLsbD_extractLsb', BitVec.getLsbD_append, hk, decide_true, Bool.true_and]
    interval_cases k <;> rfl

/-- Byte `j` of a word read (R63, R69). -/
theorem Memory.extractLsb'_read32 (m : Memory) (a : Word) {j : Nat} (hj : j < 4) :
    (m.read32 a).extractLsb' (8 * j) 8 = m.read8 (wordAddr a + BitVec.ofNat 32 j) := by
  obtain ⟨h0, h1, h2, h3⟩ := extractLsb'_four (m.read8 (wordAddr a)) (m.read8 (wordAddr a + 1))
    (m.read8 (wordAddr a + 2)) (m.read8 (wordAddr a + 3))
  unfold Memory.read32
  interval_cases j
  · simpa using h0
  · exact h1
  · exact h2
  · exact h3

/-- A rotation by whole bytes moves bytes. -/
theorem extractLsb'_rotateRight (w : Word) {r j : Nat} (hr : r < 4) (hj : j < 4) :
    (w.rotateRight (r * 8)).extractLsb' (8 * j) 8 = w.extractLsb' (8 * ((j + r) % 4)) 8 := by
  apply BitVec.eq_of_getLsbD_eq
  intro k hk
  rw [BitVec.getLsbD_extractLsb', BitVec.getLsbD_extractLsb', BitVec.getLsbD_rotateRight,
    Nat.mod_eq_of_lt (show r * 8 < 32 by omega)]
  simp only [hk, decide_true, Bool.true_and]
  by_cases h : 8 * j + k < 32 - r * 8
  · rw [decide_eq_true h, cond_true, Nat.mod_eq_of_lt (show j + r < 4 by omega)]
    congr 1
    omega
  · rw [decide_eq_false h, cond_false, show (j + r) % 4 = j + r - 4 by omega,
      decide_eq_true (show 8 * j + k < 32 by omega), Bool.true_and]
    congr 1
    omega

theorem toNat_and_three (a : Word) : (a &&& 3#32).toNat = a.toNat % 4 := by
  rw [BitVec.toNat_and]
  exact Nat.and_two_pow_sub_one_eq_mod a.toNat 2

theorem toNat_and_one (a : Word) : (a &&& 1#32).toNat = a.toNat % 2 := by
  rw [BitVec.toNat_and]
  exact Nat.and_two_pow_sub_one_eq_mod a.toNat 1

theorem getLsbD_zero_eq (a : Word) : a.getLsbD 0 = decide (a.toNat % 2 = 1) := by
  rw [BitVec.getLsbD, Nat.testBit_zero]

theorem halfAddr_of_even {a : Word} (h : a.toNat % 2 = 0) : halfAddr a = a := by
  apply BitVec.eq_of_toNat_eq
  rw [halfAddr_toNat]
  omega

theorem halfAddr_of_odd {a : Word} (h : a.toNat % 2 = 1) : halfAddr a = a - 1 := by
  apply BitVec.eq_of_toNat_eq
  have := a.isLt
  rw [halfAddr_toNat, BitVec.toNat_sub, show (1 : Word).toNat = 1 from rfl]
  omega

/-- A halfword in a register, rotated by one byte. -/
theorem rotateRight_half (x y : Byte) : ((x ++ y : Half).setWidth 32 : Word).rotateRight 8 = y ++ 0#16 ++ x := by
  apply BitVec.eq_of_getLsbD_eq
  intro k hk
  rw [BitVec.getLsbD_rotateRight]
  simp only [BitVec.getLsbD_setWidth, BitVec.getLsbD_append]
  interval_cases k <;> simp

/-- The value of every load by the bytes it is made of (R246, R248, R256 to R258). -/
theorem State.loaded_load (k : LoadKind) (s : State) (a : Word) : Loaded k s a (s.load k a).1 := by
  rw [State.load_fst]
  cases k with
  | word =>
    intro j hj
    show ((s.mem.read32 a).rotateRight ((a &&& 3#32).toNat * 8)).extractLsb' (8 * j) 8 = _
    rw [toNat_and_three, extractLsb'_rotateRight _ (by omega) hj, Memory.extractLsb'_read32 _ _ (by omega),
      Nat.add_mod_mod]
  | byte => rfl
  | half =>
    show if a.toNat % 2 = 0 then ((s.mem.read16 a).setWidth 32 : Word).rotateRight ((a &&& 1#32).toNat * 8) = _
      else ((s.mem.read16 a).setWidth 32 : Word).rotateRight ((a &&& 1#32).toNat * 8) = _
    rw [toNat_and_one]
    by_cases h : a.toNat % 2 = 0
    · rw [if_pos h, h, Memory.read16, halfAddr_of_even h]
      apply BitVec.eq_of_getLsbD_eq
      intro k hk
      rw [BitVec.getLsbD_rotateRight]
      simp [hk]
    · have h1 : a.toNat % 2 = 1 := by omega
      rw [if_neg h, h1, Memory.read16, halfAddr_of_odd h1, BitVec.sub_add_cancel]
      exact rotateRight_half _ _
  | sbyte =>
    show BitVec.toInt ((((s.mem.read8 a).setWidth 32 : Word).setWidth 8).signExtend 32) = _
    rw [BitVec.toInt_signExtend_of_le (by omega)]
    simp
  | shalf =>
    show if a.toNat % 2 = 0 then (LoadKind.extend .shalf a (s.peek (LoadKind.width .shalf a) a)).toInt = _
      else (LoadKind.extend .shalf a (s.peek (LoadKind.width .shalf a) a)).toInt = _
    simp only [LoadKind.extend, LoadKind.width, getLsbD_zero_eq]
    by_cases h : a.toNat % 2 = 0
    · have hd : ¬decide (a.toNat % 2 = 1) = true := by simp [h]
      rw [if_pos h, if_neg hd, if_neg hd, BitVec.toInt_signExtend_of_le (by omega)]
      simp only [State.peek, Memory.read16, halfAddr_of_even h]
      simp
    · have hd : decide (a.toNat % 2 = 1) = true := decide_eq_true (by omega)
      rw [if_neg h, if_pos hd, if_pos hd, BitVec.toInt_signExtend_of_le (by omega)]
      simp [State.peek]

theorem loadWidth_eq (k : LoadKind) (a : Word) : loadWidth k a = k.width a := by
  cases k <;> simp only [loadWidth, LoadKind.width, getLsbD_zero_eq]
  rcases Nat.mod_two_eq_zero_or_one a.toNat with h | h <;> simp [h]

end Sys2Proof.Machine
end

