-- ==== Sys2Proof/Laws/Block.lean ====
section
/-! SUPPORT. The runs of bus calls and register writes a block transfer is made of (R281 to R284). -/

namespace Sys2Proof.Machine

open Sys2Proof.Claims

/-- The address of the n-th word of a run. -/
theorem run_address_succ (a : Word) (k : Nat) : a + 4 + BitVec.ofNat 32 (4 * k) = a + BitVec.ofNat 32 (4 * (k + 1)) := by
  rw [BitVec.add_assoc]
  congr 1
  apply BitVec.eq_of_toNat_eq
  simp only [BitVec.toNat_add, BitVec.toNat_ofNat, show (4 : Word).toNat = 4 from rfl]
  omega

/-! ## Reading -/

/-- The words of a run of reads (R282). -/
theorem State.loadWords_fst (n : Nat) : ∀ (s : State) (a : Word), (s.loadWords a n).1 =
    (List.range n).map fun k => s.mem.read32 (a + BitVec.ofNat 32 (4 * k)) := by
  induction n with
  | zero => exact fun _ _ => rfl
  | succ n ih =>
    intro s a
    rw [List.range_succ_eq_map, List.map_cons, List.map_map]
    show s.mem.read32 a :: (State.loadWords (s.busRead .word a).2 (a + 4) n).1 = _
    rw [ih]
    congr 1
    · simp
    · apply List.map_congr_left
      intro k _
      show s.mem.read32 (a + 4 + BitVec.ofNat 32 (4 * k)) = _
      rw [run_address_succ]
      rfl

/-- The calls of a run of reads, and that nothing else changes (R282). -/
theorem State.loadWords_snd (n : Nat) : ∀ (s : State) (a : Word),
    let reads := (List.range n).map fun k => BusCall.read .word (a + BitVec.ofNat 32 (4 * k))
    (s.loadWords a n).2 = { s with now := { s.now with calls := s.now.calls ++ reads } } := by
  induction n with
  | zero =>
    intro s a
    show s = _
    simp only [List.range_zero, List.map_nil, List.append_nil]
  | succ n ih =>
    intro s a reads
    show (State.loadWords (s.busRead .word a).2 (a + 4) n).2 = _
    simp only [reads]
    rw [ih, List.range_succ_eq_map, List.map_cons, List.map_map]
    simp only [State.busRead, State.noteCall, State.mk.injEq, true_and, StepLocals.mk.injEq, List.append_assoc,
      List.cons_append, List.nil_append]
    congr 2
    · simp
    · apply List.map_congr_left
      intro k _
      rw [run_address_succ]
      rfl

/-! ## Writing registers -/

@[simp] theorem State.setRegs_cpsr (view : Mode) (l : List (Reg × Word)) :
    ∀ s : State, (s.setRegs view l).cpsr = s.cpsr := by
  induction l with
  | nil => exact fun _ => rfl
  | cons p l ih =>
    intro s
    rw [State.setRegs, ih]
    split <;> rfl

/-- A run of register writes touches registers alone. -/
theorem State.setRegs_rest (view : Mode) (l : List (Reg × Word)) : ∀ s : State,
    (s.setRegs view l).spsrs = s.spsrs ∧ (s.setRegs view l).slot = s.slot ∧ (s.setRegs view l).mem = s.mem ∧
    (s.setRegs view l).irq = s.irq ∧ (s.setRegs view l).cfg = s.cfg ∧ (s.setRegs view l).now = s.now := by
  induction l with
  | nil => exact fun _ => ⟨rfl, rfl, rfl, rfl, rfl, rfl⟩
  | cons p l ih =>
    intro s
    rw [State.setRegs]
    split
    · exact ih s
    · exact ih (s.setCell _ _)

/-- A cell that no listed register is, or that only r15 is, stays. -/
theorem State.getCell_setRegs_of_not_mem (view : Mode) {c : Cell} (l : List (Reg × Word)) :
    (∀ p ∈ l, p.1 ≠ 15 → c ≠ cell view p.1) → ∀ s : State, (s.setRegs view l).getCell c = s.getCell c := by
  induction l with
  | nil => exact fun _ _ => rfl
  | cons p l ih =>
    intro h s
    rw [State.setRegs, ih fun q hq => h q (List.mem_cons_of_mem _ hq)]
    split
    · rfl
    · exact State.getCell_setCell_ne _ (h p List.mem_cons_self (by assumption)) _

/-- A listed register other than r15 gets its word, no register being listed twice (R284). -/
theorem State.getCell_setRegs_of_mem (view : Mode) {i : Reg} {v : Word} (hi : i ≠ 15) (l : List (Reg × Word)) :
    (l.map Prod.fst).Nodup → (i, v) ∈ l → ∀ s : State, (s.setRegs view l).getCell (cell view i) = v := by
  induction l with
  | nil => exact fun _ h => by cases h
  | cons p l ih =>
    intro hn hm s
    rw [List.map_cons, List.nodup_cons] at hn
    rw [State.setRegs]
    rcases List.mem_cons.1 hm with e | hm'
    · subst e
      rw [State.getCell_setRegs_of_not_mem, if_neg hi, State.getCell_setCell_self]
      intro q hq _ e
      have hq' := List.mem_map_of_mem (f := Prod.fst) hq
      rw [← cell_injective view e] at hq'
      exact hn.1 hq'
    · exact ih hn.2 hm' _

/-! ## Writing memory -/

/-- The words of a run of writes lie apart: at most 2^30 of them. -/
theorem run_apart (a : Word) {j k : Nat} (hj : j < 2 ^ 30) (hk : k < 2 ^ 30) (h : j ≠ k) (b : Word)
    (hb : Stored .word (a + BitVec.ofNat 32 (4 * j)) b) : ¬Stored .word (a + BitVec.ofNat 32 (4 * k)) b := by
  unfold Stored widthBytes storeAddr at *
  have ha := a.isLt
  have hb' := b.isLt
  simp only [BitVec.toNat_sub, wordAddr_toNat, BitVec.toNat_add, BitVec.toNat_ofNat] at *
  omega

/-- A run of writes touches memory and the record of calls alone (R282). -/
theorem State.storeWords_rest (vs : List Word) : ∀ (s : State) (a : Word),
    (s.storeWords a vs).regs = s.regs ∧ (s.storeWords a vs).cpsr = s.cpsr ∧ (s.storeWords a vs).spsrs = s.spsrs ∧
    (s.storeWords a vs).slot = s.slot ∧ (s.storeWords a vs).irq = s.irq ∧ (s.storeWords a vs).cfg = s.cfg ∧
    (s.storeWords a vs).now.ia = s.now.ia ∧ (s.storeWords a vs).now.branched = s.now.branched ∧
    (s.mem.wf = true → (s.storeWords a vs).mem.wf = true) := by
  induction vs with
  | nil => exact fun _ _ => ⟨rfl, rfl, rfl, rfl, rfl, rfl, rfl, rfl, id⟩
  | cons v vs ih =>
    intro s a
    obtain ⟨h1, h2, h3, h4, h5, h6, h7, h8, h9⟩ := ih (s.busWrite .word a v) (a + 4)
    exact ⟨h1, h2, h3, h4, h5, h6, h7, h8, fun h => h9 (State.wf_busWrite h .word a v)⟩

/-- A byte outside every word of a run of writes stays. -/
theorem State.read8_storeWords_outside (vs : List Word) : ∀ {s : State} {a b : Word}, s.mem.wf = true →
    (∀ k, k < vs.length → ¬Stored .word (a + BitVec.ofNat 32 (4 * k)) b) →
    (s.storeWords a vs).mem.read8 b = s.mem.read8 b := by
  induction vs with
  | nil => exact fun _ _ => rfl
  | cons v vs ih =>
    intro s a b hm h
    have h0 : ¬Stored .word a b := by simpa using h 0 (by simp)
    rw [State.storeWords, ih (State.wf_busWrite hm .word a v), State.read8_busWrite_outside hm v h0]
    intro k hk
    rw [run_address_succ]
    exact h (k + 1) (by simpa using hk)

/-- The bytes of the n-th word of a run of writes (R282, R69). -/
theorem State.read8_storeWords_inside (vs : List Word) : ∀ {s : State} {a : Word} {k j : Nat}, s.mem.wf = true →
    vs.length < 2 ^ 30 → (hk : k < vs.length) → j < 4 →
    (s.storeWords a vs).mem.read8 (wordAddr (a + BitVec.ofNat 32 (4 * k)) + BitVec.ofNat 32 j) =
      vs[k].extractLsb' (8 * j) 8 := by
  induction vs with
  | nil => exact fun _ _ hk => absurd hk (by simp)
  | cons v vs ih =>
    intro s a k j hm hl hk hj
    rw [State.storeWords]
    have hm' := State.wf_busWrite hm .word a v
    have hl' : vs.length < 2 ^ 30 := by
      rw [List.length_cons] at hl
      omega
    cases k with
    | zero =>
      rw [State.read8_storeWords_outside vs hm']
      · simpa [storeAddr] using State.read8_busWrite_inside hm .word a v hj
      · intro k hk'
        rw [run_address_succ]
        refine run_apart a (j := 0) (by decide) (by omega) (by omega) _ ?_
        have hd : ∀ c : Word, c + BitVec.ofNat 32 j - c = BitVec.ofNat 32 j := fun c => by
          rw [BitVec.add_comm, BitVec.add_sub_cancel]
        simp only [Stored, storeAddr, hd, widthBytes, BitVec.toNat_ofNat]
        omega
    | succ k =>
      rw [← run_address_succ]
      exact ih hm' hl' (by simpa using hk) hj

/-- The calls of a run of writes (R282, R283). -/
theorem State.storeWords_calls (vs : List Word) : ∀ (s : State) (a : Word), (s.storeWords a vs).now.calls =
    s.now.calls ++ vs.zipIdx.map fun p => .write .word (wordAddr (a + BitVec.ofNat 32 (4 * p.2))) p.1 := by
  induction vs with
  | nil =>
    intro s a
    show s.now.calls = _
    simp
  | cons v vs ih =>
    intro s a
    rw [State.storeWords, ih, List.zipIdx_cons, List.map_cons, Nat.zero_add, List.zipIdx_succ, List.map_map]
    show (s.now.calls ++ [_]) ++ _ = _
    rw [List.append_assoc, List.singleton_append]
    congr 2
    · simp [storeAddr, storePart]
    · apply List.map_congr_left
      intro p _
      show BusCall.write .word (wordAddr (a + 4 + BitVec.ofNat 32 (4 * p.2))) p.1 = _
      rw [run_address_succ]
      rfl

end Sys2Proof.Machine
end

