-- ==== Sys2Proof/Laws/Decode.lean ====
section
/-! SUPPORT. The tables: a row that a word selects is a row of the table, two rows that one word selects are the same, and
every row makes an instruction of its own set. Also the fields of a word put together from fields. -/

namespace Sys2Proof

theorem lookup_mem {n : Nat} {β : Type} {rows : List (Row n β)} {w : BitVec n} {r : Row n β} (h : lookup rows w = some r) :
    r ∈ rows := List.mem_of_find?_eq_some h

theorem lookup_hits {n : Nat} {β : Type} {rows : List (Row n β)} {w : BitVec n} {r : Row n β} (h : lookup rows w = some r) :
    r.hits w = true := List.find?_some (p := fun r => Row.hits r w) h

/-- Two rows whose patterns differ in a bit that both masks test share no word. -/
theorem Row.not_both_hit {n : Nat} {β : Type} {r r' : Row n β} (h : (r.bits ^^^ r'.bits) &&& (r.mask &&& r'.mask) ≠ 0#n)
    (w : BitVec n) : ¬(r.hits w = true ∧ r'.hits w = true) := by
  rintro ⟨h1, h2⟩
  rw [Row.hits, beq_iff_eq] at h1 h2
  apply h
  rw [← h1, ← h2]
  ext k hk
  simp only [BitVec.getElem_and, BitVec.getElem_xor, BitVec.getElem_zero]
  cases w[k] <;> cases r.mask[k] <;> cases r'.mask[k] <;> simp

/-- In a table where no word selects two rows, a row that a word selects is the one the lookup gives. -/
theorem lookup_of_hits {n : Nat} {β : Type} {w : BitVec n} {r : Row n β} : ∀ {rows : List (Row n β)},
    rows.Pairwise (fun a b => ∀ w, ¬(a.hits w = true ∧ b.hits w = true)) → r ∈ rows → r.hits w = true →
    lookup rows w = some r
  | [], _, hm, _ => by cases hm
  | a :: rows, hp, hm, hh => by
    rw [List.pairwise_cons] at hp
    rcases List.mem_cons.1 hm with rfl | hm'
    · exact List.find?_cons_of_pos hh
    · have ha : ¬a.hits w = true := fun ha => hp.1 r hm' w ⟨ha, hh⟩
      rw [lookup, List.find?_cons_of_neg (p := fun r => Row.hits r w) ha]
      exact lookup_of_hits hp.2 hm' hh

theorem thumbAluRows_thumb : ∀ r ∈ thumbAluRows, ∀ h, ∃ k, encode (r.build h) = .thumb k := by
  unfold thumbAluRows
  repeat refine List.forall_mem_cons.2 ⟨fun h => ⟨_, rfl⟩, ?_⟩
  exact fun r h => by cases h

theorem thumbTransferRows_thumb : ∀ r ∈ thumbTransferRows, ∀ h, ∃ k, encode (r.build h) = .thumb k := by
  unfold thumbTransferRows
  repeat refine List.forall_mem_cons.2 ⟨fun h => ⟨_, rfl⟩, ?_⟩
  exact fun r h => by cases h

theorem thumbBranchRows_thumb : ∀ r ∈ thumbBranchRows, ∀ h, ∃ k, encode (r.build h) = .thumb k := by
  unfold thumbBranchRows
  repeat refine List.forall_mem_cons.2 ⟨fun h => ⟨_, rfl⟩, ?_⟩
  exact fun r h => by cases h

/-- A decoded halfword is an instruction of the THUMB set. -/
theorem decodeThumb_thumb {h : Half} {i : Instr} (hd : decodeThumb h = .ok i) : ∃ k, encode i = .thumb k := by
  unfold decodeThumb at hd
  split at hd
  · rename_i r hr
    cases hd
    have hm := lookup_mem hr
    rw [thumbTable, List.mem_append, List.mem_append] at hm
    rcases hm with (hm | hm) | hm
    · exact thumbAluRows_thumb r hm h
    · exact thumbTransferRows_thumb r hm h
    · exact thumbBranchRows_thumb r hm h
  · cases hd

/-! ## Fields of an assembled word -/

theorem field_or {n : Nat} (a b : BitVec n) (lo len : Nat) : field (a ||| b) lo len = field a lo len ||| field b lo len := by
  apply BitVec.eq_of_getLsbD_eq
  intro k hk
  simp only [field, BitVec.getLsbD_or, BitVec.getLsbD_extractLsb', hk, decide_true, Bool.true_and]

/-- A placed field reads back. -/
theorem field_put_self {n k : Nat} (lo : Nat) (v : BitVec k) (h : lo + k ≤ n) : field (put lo v : BitVec n) lo k = v := by
  apply BitVec.eq_of_getLsbD_eq
  intro j hj
  simp only [field, put, BitVec.getLsbD_extractLsb', BitVec.getLsbD_shiftLeft, BitVec.getLsbD_setWidth, hj, decide_true,
    Bool.true_and, Nat.add_sub_cancel_left]
  simp [show lo + j < n by omega, show j < n by omega]

/-- A placed field has no bit elsewhere. -/
theorem field_put_other {n k : Nat} (lo lo' len : Nat) (v : BitVec k) (h : lo' + len ≤ lo ∨ lo + k ≤ lo') :
    field (put lo v : BitVec n) lo' len = 0#len := by
  apply BitVec.eq_of_getLsbD_eq
  intro j hj
  simp only [field, put, BitVec.getLsbD_extractLsb', BitVec.getLsbD_shiftLeft, BitVec.getLsbD_setWidth, hj, decide_true,
    Bool.true_and, BitVec.getLsbD_zero]
  rcases h with h | h
  · simp [show lo' + j < lo by omega]
  · rw [BitVec.getLsbD_of_ge v _ (by omega)]
    simp

/-- Fixed bits do not disturb a field that they leave zero. -/
theorem or_field {n : Nat} (b : BitVec n) (lo len : Nat) (x : BitVec len) (h : field b lo len = 0#len) :
    x ||| field b lo len = x := by
  rw [h, BitVec.or_zero]

theorem or_and {n : Nat} (a b m : BitVec n) : (a ||| b) &&& m = (a &&& m) ||| (b &&& m) := by
  ext k hk
  simp only [BitVec.getElem_and, BitVec.getElem_or, Bool.and_or_distrib_right]

/-- A field that a mask does not test leaves no trace under it. -/
theorem put_and {n k : Nat} (lo : Nat) (v : BitVec k) (m : BitVec n) (h : field m lo k = 0#k) : put lo v &&& m = 0#n := by
  apply BitVec.eq_of_getLsbD_eq
  intro j hj
  simp only [put, BitVec.getLsbD_and, BitVec.getLsbD_shiftLeft, BitVec.getLsbD_setWidth, hj, decide_true, Bool.true_and,
    BitVec.getLsbD_zero]
  by_cases hl : j < lo
  · simp [hl]
  · by_cases hk : j - lo < k
    · have := congrArg (fun x => x.getLsbD (j - lo)) h
      simp only [field, BitVec.getLsbD_extractLsb', hk, decide_true, Bool.true_and, show lo + (j - lo) = j by omega,
        BitVec.getLsbD_zero] at this
      simp [this]
    · rw [BitVec.getLsbD_of_ge v _ (by omega)]
      simp

theorem Cond.ofBits_bits (c : Cond) : Cond.ofBits c.bits = some c := by cases c <;> rfl

theorem ShiftType.ofBits_bits (ty : ShiftType) : ShiftType.ofBits ty.bits = ty := by cases ty <;> rfl

theorem ofBool_beq_one (b : Bool) : (BitVec.ofBool b == 1#1) = b := by cases b <;> rfl

theorem field_append_four (v : BitVec 8) : field v 4 4 ++ field v 0 4 = v := by
  revert v
  decide

theorem field_append_three (v : BitVec 4) : field v 3 1 ++ field v 0 3 = v := by
  revert v
  decide

end Sys2Proof
end

