-- ==== Sys2Proof/Laws/Psr.lean ====
section
/-! SUPPORT. The bits of a PSR as a word, and what an MSR merges into it. -/

namespace Sys2Proof.Machine

open Sys2Proof.Claims

theorem getLsbD_ofBool (b : Bool) (k : Nat) : (BitVec.ofBool b).getLsbD k = (decide (k = 0) && b) := by
  cases b <;> simp [BitVec.ofBool]

/-- Every bit of a PSR (R30, R36). -/
theorem Psr.getLsbD_toWord (p : Spsr) {k : Nat} (hk : k < 32) : p.toWord.getLsbD k =
    if k < 5 then p.m.getLsbD k else if k = 5 then p.t else if k = 6 then p.f else if k = 7 then p.i
    else if k < 28 then false else if k = 28 then p.v else if k = 29 then p.c else if k = 30 then p.z else p.n := by
  simp only [Psr.toWord, BitVec.getLsbD_append, getLsbD_ofBool]
  interval_cases k <;> simp

/-- The PSR of a PSR's word. -/
theorem Psr.ofWord_toWord (p : Spsr) : Psr.ofWord p.toWord = p := by
  cases p
  rw [Psr.ofWord, Psr.mk.injEq]
  refine ⟨?_, ?_, ?_, ?_, ?_, ?_, ?_, ?_⟩
  iterate 7 (· rw [Psr.getLsbD_toWord _ (by decide)]; simp only [reduceIte, Nat.reduceLT, Nat.reduceEqDiff])
  apply BitVec.eq_of_getLsbD_eq
  intro k hk
  rw [BitVec.getLsbD_extractLsb', Psr.getLsbD_toWord _ (by omega), Nat.zero_add, if_pos hk]
  simp only [hk, decide_true, Bool.true_and]

/-- Every bit an MSR may write (R223, R37). -/
theorem State.getLsbD_psrEffective (s : State) (spsr : Bool) (mask : BitVec 4) {k : Nat} (hk : k < 32) :
    (s.psrEffective spsr mask).getLsbD k = ((decide (28 ≤ k) && mask.getLsbD 3) ||
      (decide (k < 8) && mask.getLsbD 0 && !(decide (s.cpsr.m = .user) && !spsr))) := by
  have user : ∀ (mask : BitVec 4) (k : Fin 32), ((psrByteMask mask &&& 0xFF000000#32) &&& 0xF00000FF#32).getLsbD k.val =
      (decide (28 ≤ k.val) && mask.getLsbD 3) := by decide
  have other : ∀ (mask : BitVec 4) (k : Fin 32), (psrByteMask mask &&& 0xF00000FF#32).getLsbD k.val =
      ((decide (28 ≤ k.val) && mask.getLsbD 3) || (decide (k.val < 8) && mask.getLsbD 0)) := by decide
  unfold State.psrEffective State.mode
  by_cases h : s.cpsr.m = .user ∧ spsr = false
  · rw [if_pos h, user mask ⟨k, hk⟩]
    simp [h.1, h.2]
  · rw [if_neg h, other mask ⟨k, hk⟩]
    cases spsr <;> by_cases hm : s.cpsr.m = .user <;> simp_all

/-- The PSR after an MSR, by its fields: the f byte of the mask writes N, Z, C and V; its c byte writes I, F, T and M, but
not those of the CPSR in USER mode (R223, R226, R37). -/
theorem psrMerge_psrEffective (s : State) (old : Spsr) (spsr : Bool) (mask : BitVec 4) (v : Word) :
    let fl := mask.getLsbD 3 = true
    let ct := mask.getLsbD 0 = true ∧ (s.cpsr.m = .user → spsr = true)
    psrMerge old (s.psrEffective spsr mask) v =
      { n := if fl then v.getLsbD 31 else old.n, z := if fl then v.getLsbD 30 else old.z
        c := if fl then v.getLsbD 29 else old.c, v := if fl then v.getLsbD 28 else old.v
        i := if ct then v.getLsbD 7 else old.i, f := if ct then v.getLsbD 6 else old.f
        t := if ct then v.getLsbD 5 else old.t, m := if ct then v.extractLsb' 0 5 else old.m } := by
  intro fl ct
  have merge : ∀ k, k < 32 → ((old.toWord &&& ~~~s.psrEffective spsr mask) ||| (v &&& s.psrEffective spsr mask)).getLsbD k =
      if (s.psrEffective spsr mask).getLsbD k then v.getLsbD k else old.toWord.getLsbD k := by
    intro k hk
    rw [BitVec.getLsbD_or, BitVec.getLsbD_and, BitVec.getLsbD_and, BitVec.getLsbD_not]
    cases (s.psrEffective spsr mask).getLsbD k <;> simp [hk]
  have high : ∀ k, 28 ≤ k → k < 32 → (s.psrEffective spsr mask).getLsbD k = decide fl := by
    intro k h28 hk
    rw [s.getLsbD_psrEffective spsr mask hk]
    simp [h28, show ¬k < 8 by omega, fl]
  have low : ∀ k, k < 8 → (s.psrEffective spsr mask).getLsbD k = decide ct := by
    intro k hk
    rw [s.getLsbD_psrEffective spsr mask (by omega)]
    by_cases hm : s.cpsr.m = .user <;> cases spsr <;> simp [hk, show ¬28 ≤ k by omega, ct, hm]
  rw [psrMerge, Psr.ofWord, Psr.mk.injEq]
  refine ⟨?_, ?_, ?_, ?_, ?_, ?_, ?_, ?_⟩
  iterate 4
    · rw [merge _ (by decide), high _ (by decide) (by decide), Psr.getLsbD_toWord _ (by decide)]
      simp only [decide_eq_true_eq, reduceIte, Nat.reduceLT, Nat.reduceEqDiff]
  iterate 3
    · rw [merge _ (by decide), low _ (by decide), Psr.getLsbD_toWord _ (by decide)]
      simp only [decide_eq_true_eq, reduceIte, Nat.reduceLT, Nat.reduceEqDiff]
  apply BitVec.eq_of_getLsbD_eq
  intro k hk
  rw [BitVec.getLsbD_extractLsb', Nat.zero_add, merge _ (by omega), low _ (by omega), Psr.getLsbD_toWord _ (by omega),
    if_pos hk]
  by_cases hct : ct
  · rw [if_pos hct, if_pos (decide_eq_true hct), BitVec.getLsbD_extractLsb', Nat.zero_add]
  · rw [if_neg hct, if_neg (by simpa using hct)]
    simp only [hk, decide_true, Bool.true_and]

end Sys2Proof.Machine
end

