-- ==== Sys2Proof/Laws/Effects.lean ====
section
/-! SUPPORT. What any instruction can do to a state, said once: `exec_effect`. The statements about every step follow from
it without a look at the meanings. -/

namespace Sys2Proof.Machine

open Sys2Proof.Claims

/-- A cell that neither the current view nor the user view reaches. -/
def Outside (s : State) (c : Cell) : Prop := (∀ i, c ≠ cell s.cpsr.m i) ∧ ∀ i, c ≠ .gen i

/-- A change of registers in reach, flags and memory: no slot, no input, no mode, mask or state bit, no SPSR. -/
structure Local (s t : State) : Prop where
  slot : t.slot = s.slot
  irq : t.irq = s.irq
  cfg : t.cfg = s.cfg
  ia : t.now.ia = s.now.ia
  control : SameControl s t
  spsrs : t.spsrs = s.spsrs
  mem : s.mem.wf = true → t.mem.wf = true
  cells : ∀ c, Outside s c → t.getCell c = s.getCell c
  pc : t.pc = s.pc ∨ alignFor s.cpsr.t t.pc = t.pc

theorem Local.refl (s : State) : Local s s := ⟨rfl, rfl, rfl, rfl, ⟨rfl, rfl, rfl, rfl⟩, rfl, id, fun _ _ => rfl, .inl rfl⟩

variable {s t : State}

theorem Local.setCell (h : Local s t) {c : Cell} (hc : ¬Outside s c) (hpc : c ≠ .gen 15) (v : Word) :
    Local s (t.setCell c v) where
  slot := h.slot
  irq := h.irq
  cfg := h.cfg
  ia := h.ia
  control := h.control
  spsrs := h.spsrs
  mem := h.mem
  cells := fun d hd => by
    rw [State.getCell_setCell_ne _ (fun e => hc (by rw [← e]; exact hd))]
    exact h.cells d hd
  pc := by
    have : (t.setCell c v).pc = t.pc := State.getCell_setCell_ne _ hpc.symm _
    rw [this]
    exact h.pc

theorem Local.setX (h : Local s t) {i : Reg} (hi : i ≠ 15) (v : Word) : Local s (t.setX i v) :=
  h.setCell (fun o => o.1 i (congrArg (cell · i) h.control.2.2.2)) (cell_ne_pc hi _) v

theorem Local.setFlags (h : Local s t) (f : Flags) : Local s (t.setFlags f) :=
  ⟨h.slot, h.irq, h.cfg, h.ia, h.control, h.spsrs, h.mem, h.cells, h.pc⟩

theorem Local.setFlagsIf (h : Local s t) (b : Bool) (f : Flags) : Local s (t.setFlagsIf b f) := by
  cases b
  · exact h
  · exact h.setFlags f

theorem Local.noteCall (h : Local s t) (c : BusCall) : Local s (t.noteCall c) :=
  ⟨h.slot, h.irq, h.cfg, h.ia, h.control, h.spsrs, h.mem, h.cells, h.pc⟩

theorem Local.busWrite (h : Local s t) (w : Width) (a v : Word) : Local s (t.busWrite w a v) :=
  ⟨h.slot, h.irq, h.cfg, h.ia, h.control, h.spsrs, fun hm => State.wf_busWrite (h.mem hm) w a v, h.cells, h.pc⟩

theorem Local.branchTo (h : Local s t) (a : Word) : Local s (t.branchTo a) where
  slot := h.slot
  irq := h.irq
  cfg := h.cfg
  ia := h.ia
  control := h.control
  spsrs := h.spsrs
  mem := h.mem
  cells := fun c hc => by
    rw [State.getCell_branchTo, if_neg (hc.2 15)]
    exact h.cells c hc
  pc := .inr (by rw [State.pc_branchTo, h.control.2.2.1, alignFor_alignFor])

theorem Local.writeReg (h : Local s t) (i : Reg) (v : Word) : Local s (t.writeReg i v) := by
  unfold State.writeReg
  split
  · exact h.branchTo v
  · exact h.setX (by assumption) v

theorem Local.writeBack (h : Local s t) {ix : Indexing} {rn : Reg} (hr : ¬(rn = 15 ∧ ix.writesBack = true)) (v : Word) :
    Local s (t.writeBack ix rn v) := by
  unfold State.writeBack
  split
  · exact h.setX (fun e => hr ⟨e, by assumption⟩) v
  · exact h

theorem Local.loadWords (n : Nat) : ∀ {t : State}, Local s t → ∀ a, Local s (t.loadWords a n).2 := by
  induction n with
  | zero => exact fun h _ => h
  | succ n ih => exact fun h a => ih (h.noteCall _) _

theorem Local.storeWords (vs : List Word) : ∀ {t : State}, Local s t → ∀ a, Local s (t.storeWords a vs) := by
  induction vs with
  | nil => exact fun h _ => h
  | cons v vs ih => exact fun h a => ih (h.busWrite _ _ _) _

theorem Local.setRegs {view : Mode} (hv : view = s.cpsr.m ∨ view = .user) (l : List (Reg × Word)) :
    ∀ {t : State}, Local s t → Local s (t.setRegs view l) := by
  induction l with
  | nil => exact fun h => h
  | cons p l ih =>
    intro t h
    unfold State.setRegs
    apply ih
    split
    · exact h
    · rename_i hi
      refine h.setCell (fun o => ?_) (cell_ne_pc hi view) p.2
      rcases hv with e | e
      · exact o.1 p.1 (by rw [e])
      · exact o.2 p.1 (by rw [e, cell_user])

/-- The instruction is of the ARM set. -/
def IsArm (i : Instr) : Prop := ∃ w, encode i = .arm w

/-- What an instruction does beyond a local change. -/
inductive Change (i : Instr) (s t : State) : Prop
  /-- Registers in reach, and the CPSR, of which USER mode changes only flags and T. -/
  | plain (spsrs : t.spsrs = s.spsrs)
      (user : s.cpsr.m = .user → t.cpsr.m = .user ∧ t.cpsr.i = s.cpsr.i ∧ t.cpsr.f = s.cpsr.f)
      (cells : ∀ c, Outside s c → t.getCell c = s.getCell c)
  /-- A software interrupt or an undefined instruction. -/
  | entry (m : Mode) (ret vec : Word) (eq : t = s.exceptionEntry m ret vec)
      (vector : (m = .supervisor ∧ vec = 0x00000008) ∨ (m = .undefined ∧ vec = 0x00000004))
  /-- An MSR of the mode's SPSR. -/
  | msrSpsr (v : Spsr) (eq : t = { s with spsrs := s.spsrs.put s.cpsr.m v })
      (isMsr : (∃ c mask rm, i = .msrReg c true mask rm) ∨ ∃ c mask rot imm8, i = .msrImm c true mask rot imm8)

/-- Everything an instruction can do, whichever it is. -/
structure Effect (i : Instr) (s t : State) : Prop where
  slot : t.slot = s.slot
  irq : t.irq = s.irq
  cfg : t.cfg = s.cfg
  ia : t.now.ia = s.now.ia
  mem : s.mem.wf = true → t.mem.wf = true
  pc : alignFor t.cpsr.t t.pc = t.pc ∨ (t.pc = s.pc ∧ (t.cpsr.t = s.cpsr.t ∨ IsArm i))
  change : Change i s t

variable {i : Instr}

theorem Local.effect (h : Local s t) : Effect i s t where
  slot := h.slot
  irq := h.irq
  cfg := h.cfg
  ia := h.ia
  mem := h.mem
  pc := by
    rcases h.pc with e | e
    · exact .inr ⟨e, .inl h.control.2.2.1⟩
    · exact .inl (by rw [h.control.2.2.1]; exact e)
  change := .plain h.spsrs (fun hm => ⟨h.control.2.2.2.trans hm, h.control.1, h.control.2.1⟩) h.cells

/-- A local change, then another CPSR, then perhaps a branch: an MSR, a restore, an exchange. -/
theorem Local.effect_cpsr (h : Local s t) (p : Cpsr) (hi : IsArm i)
    (hu : s.cpsr.m = .user → p.m = .user ∧ p.i = s.cpsr.i ∧ p.f = s.cpsr.f) (hpc : t.pc = s.pc) :
    Effect i s { t with cpsr := p } :=
  ⟨h.slot, h.irq, h.cfg, h.ia, h.mem, .inr ⟨hpc, .inr hi⟩, .plain h.spsrs hu h.cells⟩

theorem Local.effect_cpsr_branch (h : Local s t) (p : Cpsr) (a : Word)
    (hu : s.cpsr.m = .user → p.m = .user ∧ p.i = s.cpsr.i ∧ p.f = s.cpsr.f) :
    Effect i s ({ t with cpsr := p }.branchTo a) where
  slot := h.slot
  irq := h.irq
  cfg := h.cfg
  ia := h.ia
  mem := h.mem
  pc := .inl (by rw [State.pc_branchTo, State.branchTo_cpsr, alignFor_alignFor])
  change := .plain h.spsrs hu fun c hc => by
    rw [State.getCell_branchTo, if_neg (hc.2 15)]
    exact h.cells c hc

/-- A restore in USER mode changes nothing. -/
theorem RestoredCpsr.user {p : Cpsr} (h : RestoredCpsr s { s with cpsr := p }) (hm : s.cpsr.m = .user) :
    p.m = .user ∧ p.i = s.cpsr.i ∧ p.f = s.cpsr.f := by
  have hn : s.spsrs.get? s.cpsr.m = none := by rw [hm]; rfl
  have e : p = s.cpsr := h.2 hn
  exact ⟨by rw [e]; exact hm, by rw [e], by rw [e]⟩

/-! ## One lemma per shared operation -/

theorem effect_ifCond {c : Cond} {body : Answer} (hb : ∀ u, body = .next u → Effect i s u)
    (h : s.ifCond c body = .next t) : Effect i s t := by
  rcases State.ifCond_next h with ⟨-, h'⟩ | ⟨-, rfl⟩
  · exact hb t h'
  · exact (Local.refl _).effect

/-- `Effect` of everything a meaning may answer. -/
def Effects (i : Instr) (s : State) (a : Answer) : Prop := ∀ t, a = .next t → Effect i s t

theorem Effects.refused (r : Refusal) : Effects i s (.refused r) := fun _ h => by cases h

theorem Effects.next (h : Effect i s t) : Effects i s (.next t) := fun _ e => by
  cases e
  exact h

theorem Effects.ite {p : Prop} [Decidable p] {a b : Answer} (ha : p → Effects i s a) (hb : ¬p → Effects i s b) :
    Effects i s (if p then a else b) := by
  by_cases h : p
  · rw [if_pos h]
    exact ha h
  · rw [if_neg h]
    exact hb h

theorem Effects.ifCond {c : Cond} {body : Answer} (hb : Effects i s body) : Effects i s (s.ifCond c body) := fun _ h =>
  effect_ifCond hb h

theorem effects_dataProcessing (hi : IsArm i) (op : DpOp) (sb : Bool) (rn rd : Reg) (o : Operand2) :
    Effects i s (s.dataProcessing op sb rn rd o) := by
  unfold State.dataProcessing
  refine Effects.ite (fun _ => Effects.ite (fun _ t h => ?_) fun _ => Effects.next ?_) fun hd => Effects.next ?_
  · obtain ⟨p, rfl, hp⟩ := State.afterRestore_next h
    split
    · exact (Local.refl s).effect_cpsr_branch p _ (RestoredCpsr.user hp)
    · exact (Local.refl s).effect_cpsr p hi (RestoredCpsr.user hp) rfl
  · split
    · exact ((Local.refl s).branchTo _).effect
    · exact (Local.refl s).effect
  · refine (Local.setFlagsIf ?_ _ _).effect
    split
    · exact (Local.refl s).setX hd _
    · exact Local.refl s

theorem effects_multiply {rd : Reg} (hd : rd ≠ 15) (sb : Bool) (r : Word) : Effects i s (s.multiply sb rd r) :=
  Effects.next (((Local.refl s).setX hd r).setFlagsIf _ _).effect

theorem effects_multiplyLong {rdHi rdLo : Reg} (hh : rdHi ≠ 15) (hl : rdLo ≠ 15) (sb : Bool) (r : BitVec 64) :
    Effects i s (s.multiplyLong sb rdHi rdLo r) :=
  Effects.next ((((Local.refl s).setX hl _).setX hh _).setFlagsIf _ _).effect

theorem effects_short {rd rs rm : Reg} (e : Bool) (sb : Bool) (r : Word) :
    Effects i s (if mulForbidden rd rs rm || e then .refused .restrictedMultiply else s.multiply sb rd r) :=
  Effects.ite (fun _ => .refused _) fun h => effects_multiply (fun hd => h (by simp [mulForbidden, hd])) sb r

theorem effects_mul {rd rs rm : Reg} (sb : Bool) (r : Word) :
    Effects i s (if mulForbidden rd rs rm then .refused .restrictedMultiply else s.multiply sb rd r) :=
  Effects.ite (fun _ => .refused _) fun h => effects_multiply (fun hd => h (by simp [mulForbidden, hd])) sb r

theorem effects_long {rdHi rdLo rs rm : Reg} (sb : Bool) (r : BitVec 64) :
    Effects i s (if mulLongForbidden rdHi rdLo rs rm then .refused .restrictedMultiply
      else s.multiplyLong sb rdHi rdLo r) :=
  Effects.ite (fun _ => .refused _) fun h => effects_multiplyLong (fun hd => h (by simp [mulLongForbidden, hd]))
    (fun hd => h (by simp [mulLongForbidden, hd])) sb r

theorem effects_mrs {rd : Reg} (v : Word) :
    Effects i s (if rd = 15 then .refused .forbiddenR15 else .next (s.setX rd v)) :=
  Effects.ite (fun _ => .refused _) fun h => .next ((Local.refl s).setX h v).effect

/-- In USER mode an MSR of the CPSR reaches the flags alone (R37, R223). -/
theorem psrMerge_user (hm : s.cpsr.m = .user) (mask : BitVec 4) (v : Word) :
    let p := psrMerge s.cpsr.toSpsr (s.psrEffective false mask) v
    p.m = s.cpsr.m.bits ∧ p.i = s.cpsr.i ∧ p.f = s.cpsr.f := by
  have h : ¬(mask.getLsbD 0 = true ∧ (s.cpsr.m = .user → false = true)) := fun h => by cases h.2 hm
  intro p
  rw [show p = _ from psrMerge_psrEffective s _ false mask v]
  exact ⟨if_neg h, if_neg h, if_neg h⟩

theorem effects_writePsr (hi : IsArm i) {spsr : Bool} (mask : BitVec 4) (v : Word)
    (hm : spsr = true → (∃ c mask rm, i = .msrReg c true mask rm) ∨ ∃ c mask rot imm8, i = .msrImm c true mask rot imm8) :
    Effects i s (s.writePsr spsr mask v) := by
  unfold State.writePsr
  refine Effects.ite (fun hs t h => ?_) fun hs t h => ?_
  · split at h
    · cases h
    · cases h
      exact ⟨rfl, rfl, rfl, rfl, id, .inr ⟨rfl, .inl rfl⟩, .msrSpsr _ rfl (hm hs)⟩
  · split at h
    · cases h
    · rename_i p hp
      cases h
      refine (Local.refl s).effect_cpsr p hi (fun hu => ?_) rfl
      have e := Psr.toSpsr_of_toCpsr? hp
      rw [Bool.not_eq_true] at hs
      rw [hs] at e
      have := psrMerge_user hu mask v
      rw [← e] at this
      refine ⟨?_, this.2.1, this.2.2⟩
      have hb : p.m.bits = s.cpsr.m.bits := this.1
      have := congrArg Mode.ofBits hb
      rw [Mode.ofBits_bits, Mode.ofBits_bits, hu] at this
      exact Option.some.inj this

theorem effects_msrReg (hi : IsArm i) {spsr : Bool} {rm : Reg} (mask : BitVec 4) (v : Word)
    (hm : spsr = true → (∃ c mask rm, i = .msrReg c true mask rm) ∨ ∃ c mask rot imm8, i = .msrImm c true mask rot imm8) :
    Effects i s (if rm = 15 then .refused .forbiddenR15 else s.writePsr spsr mask v) :=
  Effects.ite (fun _ => .refused _) fun _ => effects_writePsr hi mask v hm

theorem not_transferForbidden {ix : Indexing} {rn : Reg} {o : Offset} (h : ¬transferForbidden ix rn o = true) :
    o.usesR15 = false ∧ ¬(rn = 15 ∧ ix.writesBack = true) := by
  simpa [transferForbidden] using h

theorem local_doLoad (k : LoadKind) {ix : Indexing} {rn : Reg} (rd : Reg) (o : Offset)
    (hr : ¬(rn = 15 ∧ ix.writesBack = true)) : Local s (s.doLoad k ix rn rd o) :=
  (Local.writeBack ((Local.refl s).noteCall _) hr _).writeReg rd _

theorem local_doStore (w : Width) {ix : Indexing} {rn : Reg} (rd : Reg) (o : Offset)
    (hr : ¬(rn = 15 ∧ ix.writesBack = true)) : Local s (s.doStore w ix rn rd o) :=
  Local.writeBack ((Local.refl s).busWrite _ _ _) hr _

theorem effects_singleLoad (k : LoadKind) (ix : Indexing) (rn rd : Reg) (o : Offset) :
    Effects i s (s.singleLoad k ix rn rd o) :=
  Effects.ite (fun _ => .refused _) fun h => .next (local_doLoad k rd o (not_transferForbidden h).2).effect

theorem effects_singleStore (w : Width) (ix : Indexing) (rn rd : Reg) (o : Offset) :
    Effects i s (s.singleStore w ix rn rd o) :=
  Effects.ite (fun _ => .refused _) fun h => .next (local_doStore w rd o (not_transferForbidden h).2).effect

theorem effects_halfLoad (k : LoadKind) (ix : Indexing) (rn rd : Reg) (o : Offset) :
    Effects i s (s.halfLoad k ix rn rd o) :=
  Effects.ite (fun _ => .refused _) fun _ => Effects.ite (fun _ => .refused _) fun h =>
    .next (local_doLoad k rd o (not_transferForbidden fun e => h (by rw [e]; rfl)).2).effect

theorem effects_halfStore (ix : Indexing) (rn rd : Reg) (o : Offset) : Effects i s (s.halfStore ix rn rd o) :=
  Effects.ite (fun _ => .refused _) fun _ => Effects.ite (fun _ => .refused _) fun h =>
    .next (local_doStore .half rd o (not_transferForbidden h).2).effect

theorem effects_swap (w : Width) (rn rd rm : Reg) : Effects i s (s.swap w rn rd rm) :=
  Effects.ite (fun _ => .refused _) fun h =>
    .next (Local.setX (((Local.refl s).noteCall _).busWrite _ _ _) (fun e => h (by simp [e])) _).effect

theorem local_doBlockLoad (b : BlockMode) (w : Bool) {rn : Reg} (hr : rn ≠ 15) {view : Mode}
    (hv : view = s.cpsr.m ∨ view = .user) (list : BitVec 16) : Local s (s.doBlockLoad b w rn view list).1 := by
  refine Local.setRegs hv _ ?_
  split
  · exact ((Local.refl s).loadWords _ _).setX hr _
  · exact (Local.refl s).loadWords _ _

theorem local_doBlockStore (b : BlockMode) (w : Bool) {rn : Reg} (hr : rn ≠ 15) (view : Mode) (list : BitVec 16) :
    Local s (s.doBlockStore b w rn view list) := by
  unfold State.doBlockStore
  dsimp only
  split
  · exact ((Local.refl s).storeWords _ _).setX hr _
  · exact (Local.refl s).storeWords _ _

theorem blockRefusal_none {rn : Reg} {list : BitVec 16} (h : blockRefusal rn list = none) : list ≠ 0 ∧ rn ≠ 15 := by
  unfold blockRefusal at h
  split at h
  · cases h
  · split at h
    · cases h
    · exact ⟨by assumption, by assumption⟩

theorem effects_blockLoad (b : BlockMode) (w : Bool) (rn : Reg) (list : BitVec 16) :
    Effects i s (s.blockLoad b w rn list) := by
  intro t h
  unfold State.blockLoad at h
  split at h
  · cases h
  · rename_i hb
    have hl := local_doBlockLoad (s := s) b w (blockRefusal_none hb).2 (view := s.mode) (.inl rfl) list
    split at h
    · rename_i u e
      rw [e] at hl
      cases h
      exact hl.effect
    · rename_i u v e
      rw [e] at hl
      cases h
      exact (hl.branchTo v).effect

theorem effects_blockLoadUser (b : BlockMode) (w : Bool) (rn : Reg) (list : BitVec 16) :
    Effects i s (s.blockLoadUser b w rn list) := by
  intro t h
  unfold State.blockLoadUser at h
  split at h
  · cases h
  · rename_i hb
    split at h
    · cases h
    · cases h
      exact (local_doBlockLoad b false (blockRefusal_none hb).2 (.inr rfl) list).effect

theorem effects_blockLoadRestore (b : BlockMode) (w : Bool) (rn : Reg) (list : BitVec 16) :
    Effects i s (s.blockLoadRestore b w rn list) := by
  intro t h
  unfold State.blockLoadRestore at h
  split at h
  · cases h
  · rename_i hb
    have hl := local_doBlockLoad (s := s) b w (blockRefusal_none hb).2 (view := s.mode) (.inl rfl) list
    obtain ⟨p, rfl, hp⟩ := State.afterRestore_next h
    refine hl.effect_cpsr_branch p _ fun hm => ?_
    have := RestoredCpsr.user hp (hl.control.2.2.2.trans hm)
    exact ⟨this.1, this.2.1.trans hl.control.1, this.2.2.trans hl.control.2.1⟩

theorem effects_blockStore (b : BlockMode) (w : Bool) (rn : Reg) (list : BitVec 16) :
    Effects i s (s.blockStore b w rn list) := by
  intro t h
  unfold State.blockStore at h
  split at h
  · cases h
  · rename_i hb
    cases h
    exact (local_doBlockStore b w (blockRefusal_none hb).2 _ list).effect

theorem effects_blockStoreUser (b : BlockMode) (w : Bool) (rn : Reg) (list : BitVec 16) :
    Effects i s (s.blockStoreUser b w rn list) := by
  intro t h
  unfold State.blockStoreUser at h
  split at h
  · cases h
  · rename_i hb
    split at h
    · cases h
    · cases h
      exact (local_doBlockStore b false (blockRefusal_none hb).2 _ list).effect

theorem effect_exceptionEntry {m : Mode} {vec : Word} (ret : Word)
    (hv : (m = .supervisor ∧ vec = 0x00000008) ∨ (m = .undefined ∧ vec = 0x00000004)) :
    Effect i s (s.exceptionEntry m ret vec) where
  slot := rfl
  irq := rfl
  cfg := rfl
  ia := rfl
  mem := id
  pc := .inl (by
    rw [State.pc, State.getCell_exceptionEntry, if_pos rfl]
    exact wordAddr_wordAddr vec)
  change := .entry m ret vec rfl hv

theorem effects_undefinedRoute : Effects i s s.undefinedRoute := by
  intro t h
  unfold State.undefinedRoute at h
  split at h
  · cases h
    exact effect_exceptionEntry _ (.inr ⟨rfl, rfl⟩)
  · cases h
    exact (Local.refl s).effect

theorem effects_takeSwi : Effects i s (.next s.takeSwi) := .next (effect_exceptionEntry _ (.inl ⟨rfl, rfl⟩))

theorem effects_branchTo (a : Word) : Effects i s (.next (s.branchTo a)) := .next ((Local.refl s).branchTo a).effect

theorem effects_linkBranchTo (l a : Word) : Effects i s (.next ((s.setX 14 l).branchTo a)) :=
  .next (((Local.refl s).setX (by decide) l).branchTo a).effect

theorem effects_exchangeTo (a : Word) : Effects i s (.next (s.exchangeTo a)) :=
  .next ((Local.refl s).effect_cpsr_branch _ a fun hm => ⟨hm, rfl, rfl⟩)

theorem effects_blx (l a : Word) : Effects i s (if s.cfg.hasBlx then .next ((s.setX 14 l).exchangeTo a) else s.undefinedRoute) :=
  Effects.ite (fun _ => .next (((Local.refl s).setX (by decide) l).effect_cpsr_branch _ a fun hm => ⟨hm, rfl, rfl⟩))
    fun _ => effects_undefinedRoute

theorem effects_blxLow (l a : Word) : Effects i s (if s.cfg.hasBlx then
    .next ({ s.setX 14 l with cpsr := { s.cpsr with t := false } }.branchTo a) else s.undefinedRoute) :=
  Effects.ite (fun _ => .next (((Local.refl s).setX (by decide) l).effect_cpsr_branch _ a fun hm => ⟨hm, rfl, rfl⟩))
    fun _ => effects_undefinedRoute

theorem effects_thumbResult (rd : LowReg) (v : Word) (f : Flags) : Effects i s (.next ((s.setX (lowReg rd) v).setFlags f)) :=
  .next (((Local.refl s).setX (lowReg_ne_fifteen rd) v).setFlags f).effect

theorem effects_thumbFlags (f : Flags) : Effects i s (.next (s.setFlags f)) := .next ((Local.refl s).setFlags f).effect

theorem effects_writeReg (rd : Reg) (v : Word) : Effects i s (.next (s.writeReg rd v)) :=
  .next ((Local.refl s).writeReg rd v).effect

theorem effects_setX {rd : Reg} (h : rd ≠ 15) (v : Word) : Effects i s (.next (s.setX rd v)) :=
  .next ((Local.refl s).setX h v).effect

theorem effects_thumbLoad (k : LoadKind) (rd : LowReg) (a : Word) : Effects i s (s.thumbLoad k rd a) :=
  .next (((Local.refl s).noteCall _).setX (lowReg_ne_fifteen rd) _).effect

theorem effects_thumbStore (w : Width) (rd : LowReg) (a : Word) : Effects i s (s.thumbStore w rd a) :=
  .next ((Local.refl s).busWrite w a _).effect

theorem effects_thumbCondBranch (c : Cond) (o : BitVec 8) : Effects i s (s.thumbCondBranch c o) :=
  (effects_branchTo _).ifCond

/-! ## Every instruction -/

/-- What any instruction can do when it answers a next state. -/
theorem exec_effects (i : Instr) (s : State) : Effects i s (exec i s) := by
  cases i with
  | andImm => exact (effects_dataProcessing ⟨_, rfl⟩ _ _ _ _ _).ifCond
  | andShImm => exact (effects_dataProcessing ⟨_, rfl⟩ _ _ _ _ _).ifCond
  | andShReg => exact (effects_dataProcessing ⟨_, rfl⟩ _ _ _ _ _).ifCond
  | eorImm => exact (effects_dataProcessing ⟨_, rfl⟩ _ _ _ _ _).ifCond
  | eorShImm => exact (effects_dataProcessing ⟨_, rfl⟩ _ _ _ _ _).ifCond
  | eorShReg => exact (effects_dataProcessing ⟨_, rfl⟩ _ _ _ _ _).ifCond
  | subImm => exact (effects_dataProcessing ⟨_, rfl⟩ _ _ _ _ _).ifCond
  | subShImm => exact (effects_dataProcessing ⟨_, rfl⟩ _ _ _ _ _).ifCond
  | subShReg => exact (effects_dataProcessing ⟨_, rfl⟩ _ _ _ _ _).ifCond
  | rsbImm => exact (effects_dataProcessing ⟨_, rfl⟩ _ _ _ _ _).ifCond
  | rsbShImm => exact (effects_dataProcessing ⟨_, rfl⟩ _ _ _ _ _).ifCond
  | rsbShReg => exact (effects_dataProcessing ⟨_, rfl⟩ _ _ _ _ _).ifCond
  | addImm => exact (effects_dataProcessing ⟨_, rfl⟩ _ _ _ _ _).ifCond
  | addShImm => exact (effects_dataProcessing ⟨_, rfl⟩ _ _ _ _ _).ifCond
  | addShReg => exact (effects_dataProcessing ⟨_, rfl⟩ _ _ _ _ _).ifCond
  | adcImm => exact (effects_dataProcessing ⟨_, rfl⟩ _ _ _ _ _).ifCond
  | adcShImm => exact (effects_dataProcessing ⟨_, rfl⟩ _ _ _ _ _).ifCond
  | adcShReg => exact (effects_dataProcessing ⟨_, rfl⟩ _ _ _ _ _).ifCond
  | sbcImm => exact (effects_dataProcessing ⟨_, rfl⟩ _ _ _ _ _).ifCond
  | sbcShImm => exact (effects_dataProcessing ⟨_, rfl⟩ _ _ _ _ _).ifCond
  | sbcShReg => exact (effects_dataProcessing ⟨_, rfl⟩ _ _ _ _ _).ifCond
  | rscImm => exact (effects_dataProcessing ⟨_, rfl⟩ _ _ _ _ _).ifCond
  | rscShImm => exact (effects_dataProcessing ⟨_, rfl⟩ _ _ _ _ _).ifCond
  | rscShReg => exact (effects_dataProcessing ⟨_, rfl⟩ _ _ _ _ _).ifCond
  | tstImm => exact (effects_dataProcessing ⟨_, rfl⟩ _ _ _ _ _).ifCond
  | tstShImm => exact (effects_dataProcessing ⟨_, rfl⟩ _ _ _ _ _).ifCond
  | tstShReg => exact (effects_dataProcessing ⟨_, rfl⟩ _ _ _ _ _).ifCond
  | teqImm => exact (effects_dataProcessing ⟨_, rfl⟩ _ _ _ _ _).ifCond
  | teqShImm => exact (effects_dataProcessing ⟨_, rfl⟩ _ _ _ _ _).ifCond
  | teqShReg => exact (effects_dataProcessing ⟨_, rfl⟩ _ _ _ _ _).ifCond
  | cmpImm => exact (effects_dataProcessing ⟨_, rfl⟩ _ _ _ _ _).ifCond
  | cmpShImm => exact (effects_dataProcessing ⟨_, rfl⟩ _ _ _ _ _).ifCond
  | cmpShReg => exact (effects_dataProcessing ⟨_, rfl⟩ _ _ _ _ _).ifCond
  | cmnImm => exact (effects_dataProcessing ⟨_, rfl⟩ _ _ _ _ _).ifCond
  | cmnShImm => exact (effects_dataProcessing ⟨_, rfl⟩ _ _ _ _ _).ifCond
  | cmnShReg => exact (effects_dataProcessing ⟨_, rfl⟩ _ _ _ _ _).ifCond
  | orrImm => exact (effects_dataProcessing ⟨_, rfl⟩ _ _ _ _ _).ifCond
  | orrShImm => exact (effects_dataProcessing ⟨_, rfl⟩ _ _ _ _ _).ifCond
  | orrShReg => exact (effects_dataProcessing ⟨_, rfl⟩ _ _ _ _ _).ifCond
  | movImm => exact (effects_dataProcessing ⟨_, rfl⟩ _ _ _ _ _).ifCond
  | movShImm => exact (effects_dataProcessing ⟨_, rfl⟩ _ _ _ _ _).ifCond
  | movShReg => exact (effects_dataProcessing ⟨_, rfl⟩ _ _ _ _ _).ifCond
  | bicImm => exact (effects_dataProcessing ⟨_, rfl⟩ _ _ _ _ _).ifCond
  | bicShImm => exact (effects_dataProcessing ⟨_, rfl⟩ _ _ _ _ _).ifCond
  | bicShReg => exact (effects_dataProcessing ⟨_, rfl⟩ _ _ _ _ _).ifCond
  | mvnImm => exact (effects_dataProcessing ⟨_, rfl⟩ _ _ _ _ _).ifCond
  | mvnShImm => exact (effects_dataProcessing ⟨_, rfl⟩ _ _ _ _ _).ifCond
  | mvnShReg => exact (effects_dataProcessing ⟨_, rfl⟩ _ _ _ _ _).ifCond
  | mul => exact (effects_mul _ _).ifCond
  | mla => exact (effects_short _ _ _).ifCond
  | umull => exact (effects_long _ _).ifCond
  | umlal => exact (effects_long _ _).ifCond
  | smull => exact (effects_long _ _).ifCond
  | smlal => exact (effects_long _ _).ifCond
  | mrs => exact (effects_mrs _).ifCond
  | msrReg => exact (effects_msrReg ⟨_, rfl⟩ _ _ fun e => .inl ⟨_, _, _, by rw [e]⟩).ifCond
  | msrImm => exact (effects_writePsr ⟨_, rfl⟩ _ _ fun e => .inr ⟨_, _, _, _, by rw [e]⟩).ifCond
  | ldrImmPre => exact (effects_singleLoad _ _ _ _ _).ifCond
  | ldrImmPost => exact (effects_singleLoad _ _ _ _ _).ifCond
  | ldrtImm => exact (effects_singleLoad _ _ _ _ _).ifCond
  | ldrRegPre => exact (effects_singleLoad _ _ _ _ _).ifCond
  | ldrRegPost => exact (effects_singleLoad _ _ _ _ _).ifCond
  | ldrtReg => exact (effects_singleLoad _ _ _ _ _).ifCond
  | strImmPre => exact (effects_singleStore _ _ _ _ _).ifCond
  | strImmPost => exact (effects_singleStore _ _ _ _ _).ifCond
  | strtImm => exact (effects_singleStore _ _ _ _ _).ifCond
  | strRegPre => exact (effects_singleStore _ _ _ _ _).ifCond
  | strRegPost => exact (effects_singleStore _ _ _ _ _).ifCond
  | strtReg => exact (effects_singleStore _ _ _ _ _).ifCond
  | ldrbImmPre => exact (effects_singleLoad _ _ _ _ _).ifCond
  | ldrbImmPost => exact (effects_singleLoad _ _ _ _ _).ifCond
  | ldrbtImm => exact (effects_singleLoad _ _ _ _ _).ifCond
  | ldrbRegPre => exact (effects_singleLoad _ _ _ _ _).ifCond
  | ldrbRegPost => exact (effects_singleLoad _ _ _ _ _).ifCond
  | ldrbtReg => exact (effects_singleLoad _ _ _ _ _).ifCond
  | strbImmPre => exact (effects_singleStore _ _ _ _ _).ifCond
  | strbImmPost => exact (effects_singleStore _ _ _ _ _).ifCond
  | strbtImm => exact (effects_singleStore _ _ _ _ _).ifCond
  | strbRegPre => exact (effects_singleStore _ _ _ _ _).ifCond
  | strbRegPost => exact (effects_singleStore _ _ _ _ _).ifCond
  | strbtReg => exact (effects_singleStore _ _ _ _ _).ifCond
  | strhReg => exact (effects_halfStore _ _ _ _).ifCond
  | strhImm => exact (effects_halfStore _ _ _ _).ifCond
  | ldrhReg => exact (effects_halfLoad _ _ _ _ _).ifCond
  | ldrhImm => exact (effects_halfLoad _ _ _ _ _).ifCond
  | ldrsbReg => exact (effects_halfLoad _ _ _ _ _).ifCond
  | ldrsbImm => exact (effects_halfLoad _ _ _ _ _).ifCond
  | ldrshReg => exact (effects_halfLoad _ _ _ _ _).ifCond
  | ldrshImm => exact (effects_halfLoad _ _ _ _ _).ifCond
  | swp => exact (effects_swap _ _ _ _).ifCond
  | swpb => exact (effects_swap _ _ _ _).ifCond
  | ldm => exact (effects_blockLoad _ _ _ _).ifCond
  | ldmUser => exact (effects_blockLoadUser _ _ _ _).ifCond
  | ldmRestore => exact (effects_blockLoadRestore _ _ _ _).ifCond
  | stm => exact (effects_blockStore _ _ _ _).ifCond
  | stmUser => exact (effects_blockStoreUser _ _ _ _).ifCond
  | b => exact (effects_branchTo _).ifCond
  | bl => exact (effects_linkBranchTo _ _).ifCond
  | bx => exact (effects_exchangeTo _).ifCond
  | blx => exact (effects_blx _ _).ifCond
  | swi => exact effects_takeSwi.ifCond
  | undefinedPattern => exact effects_undefinedRoute.ifCond
  | tLslImm => exact effects_thumbResult _ _ _
  | tLsrImm => exact effects_thumbResult _ _ _
  | tAsrImm => exact effects_thumbResult _ _ _
  | tAddReg => exact effects_thumbResult _ _ _
  | tSubReg => exact effects_thumbResult _ _ _
  | tAddImm3 => exact effects_thumbResult _ _ _
  | tSubImm3 => exact effects_thumbResult _ _ _
  | tMovImm => exact effects_thumbResult _ _ _
  | tCmpImm => exact effects_thumbFlags _
  | tAddImm => exact effects_thumbResult _ _ _
  | tSubImm => exact effects_thumbResult _ _ _
  | tAnd => exact effects_thumbResult _ _ _
  | tEor => exact effects_thumbResult _ _ _
  | tLslReg => exact effects_thumbResult _ _ _
  | tLsrReg => exact effects_thumbResult _ _ _
  | tAsrReg => exact effects_thumbResult _ _ _
  | tAdc => exact effects_thumbResult _ _ _
  | tSbc => exact effects_thumbResult _ _ _
  | tRorReg => exact effects_thumbResult _ _ _
  | tTst => exact effects_thumbFlags _
  | tNeg => exact effects_thumbResult _ _ _
  | tCmpReg => exact effects_thumbFlags _
  | tCmn => exact effects_thumbFlags _
  | tOrr => exact effects_thumbResult _ _ _
  | tMul => exact effects_thumbResult _ _ _
  | tBic => exact effects_thumbResult _ _ _
  | tMvn => exact effects_thumbResult _ _ _
  | tAddHi => exact effects_writeReg _ _
  | tCmpHi => exact effects_thumbFlags _
  | tMovHi => exact effects_writeReg _ _
  | tBx => exact effects_exchangeTo _
  | tLdrPc => exact effects_thumbLoad _ _ _
  | tStrReg => exact effects_thumbStore _ _ _
  | tStrbReg => exact effects_thumbStore _ _ _
  | tLdrReg => exact effects_thumbLoad _ _ _
  | tLdrbReg => exact effects_thumbLoad _ _ _
  | tStrhReg => exact effects_thumbStore _ _ _
  | tLdrhReg => exact effects_thumbLoad _ _ _
  | tLdsb => exact effects_thumbLoad _ _ _
  | tLdsh => exact effects_thumbLoad _ _ _
  | tStrImm => exact effects_thumbStore _ _ _
  | tLdrImm => exact effects_thumbLoad _ _ _
  | tStrbImm => exact effects_thumbStore _ _ _
  | tLdrbImm => exact effects_thumbLoad _ _ _
  | tStrhImm => exact effects_thumbStore _ _ _
  | tLdrhImm => exact effects_thumbLoad _ _ _
  | tStrSp => exact effects_thumbStore _ _ _
  | tLdrSp => exact effects_thumbLoad _ _ _
  | tAddPc => exact effects_setX (lowReg_ne_fifteen _) _
  | tAddSp => exact effects_setX (lowReg_ne_fifteen _) _
  | tSpAdd => exact effects_setX (by decide) _
  | tSpSub => exact effects_setX (by decide) _
  | tPush => exact effects_blockStore _ _ _ _
  | tPop => exact effects_blockLoad _ _ _ _
  | tStmia => exact effects_blockStore _ _ _ _
  | tLdmia => exact effects_blockLoad _ _ _ _
  | tBeq => exact effects_thumbCondBranch _ _
  | tBne => exact effects_thumbCondBranch _ _
  | tBcs => exact effects_thumbCondBranch _ _
  | tBcc => exact effects_thumbCondBranch _ _
  | tBmi => exact effects_thumbCondBranch _ _
  | tBpl => exact effects_thumbCondBranch _ _
  | tBvs => exact effects_thumbCondBranch _ _
  | tBvc => exact effects_thumbCondBranch _ _
  | tBhi => exact effects_thumbCondBranch _ _
  | tBls => exact effects_thumbCondBranch _ _
  | tBge => exact effects_thumbCondBranch _ _
  | tBlt => exact effects_thumbCondBranch _ _
  | tBgt => exact effects_thumbCondBranch _ _
  | tBle => exact effects_thumbCondBranch _ _
  | tSwi => exact effects_takeSwi
  | tB => exact effects_branchTo _
  | tBlHigh => exact effects_setX (by decide) _
  | tBlLow => exact effects_linkBranchTo _ _
  | tBlxLow => exact effects_blxLow _ _

theorem exec_effect {i : Instr} {s t : State} (h : exec i s = .next t) : Effect i s t := exec_effects i s t h

/-- A word that is no instruction does no more than any instruction could. -/
theorem undecoded_effect {why : Reject} (h : s.undecoded why = .next t) : Effect i s t := by
  cases why with
  | conditionNv =>
    simp only [State.undecoded, State.conditionNv] at h
    split at h
    · cases h
    · cases h
      exact (Local.refl s).effect
  | unallocatedArm c sp => exact effects_undefinedRoute.ifCond t h
  | unallocatedThumb => exact effects_undefinedRoute t h
  | truncated => exact effects_undefinedRoute t h

/-! ## The invariant -/

theorem State.inv_iff (s : State) :
    s.inv = true ↔ alignFor s.cpsr.t s.pc = s.pc ∧ s.slot.addr = s.pc ∧ s.mem.wf = true := by
  rw [State.inv, State.pcAligned, State.slotAtPc, Bool.and_eq_true, Bool.and_eq_true, beq_iff_eq, beq_iff_eq, and_assoc,
    eq_comm]

/-- r15 stays aligned, where an ARM instruction is one executed in ARM state. -/
theorem Effect.aligned (e : Effect i s t) (h : alignFor s.cpsr.t s.pc = s.pc) (hi : IsArm i → s.cpsr.t = false) :
    alignFor t.cpsr.t t.pc = t.pc := by
  rcases e.pc with h1 | ⟨h1, h2 | h2⟩
  · exact h1
  · rw [h1, h2, h]
  · rw [hi h2] at h
    rw [h1]
    cases t.cpsr.t
    · exact h
    · have hw : wordAddr s.pc = s.pc := h
      show halfAddr s.pc = s.pc
      rw [← hw, halfAddr_wordAddr]

end Sys2Proof.Machine
end

