-- ==== Sys2Proof/Laws/Families.lean ====
section
/-! SUPPORT. The families of Claims by the shared operation each member calls, the flags of a result in the terms of
Claims, and the order of a register list. -/

namespace Sys2Proof.Machine

open Sys2Proof.Claims

/-! ## Families -/

theorem exec_dataInstr (op : DpOp) (c : Cond) (sb : Bool) (rn rd : Reg) (o : Operand2) (s : State) :
    exec (dataInstr op c sb rn rd o) s = s.ifCond c (s.dataProcessing op (sb || !op.writes) rn rd o) := by
  cases op <;> cases o <;> simp only [DpOp.writes, Bool.not_true, Bool.not_false, Bool.or_false, Bool.or_true] <;> rfl

theorem exec_loadInstr (byte : Bool) (c : Cond) (ix : Indexing) (rn rd : Reg) (o : WordOffset) (s : State) :
    exec (loadInstr byte c ix rn rd o) s =
      s.ifCond c (s.singleLoad (if byte then .byte else .word) ix rn rd o.offset) := by
  obtain ⟨p, u, w⟩ := ix
  cases byte <;> cases p <;> cases w <;> cases o <;> rfl

theorem exec_storeInstr (byte : Bool) (c : Cond) (ix : Indexing) (rn rd : Reg) (o : WordOffset) (s : State) :
    exec (storeInstr byte c ix rn rd o) s =
      s.ifCond c (s.singleStore (if byte then .byte else .word) ix rn rd o.offset) := by
  obtain ⟨p, u, w⟩ := ix
  cases byte <;> cases p <;> cases w <;> cases o <;> rfl

theorem exec_halfLoadInstr (k : HalfKind) (c : Cond) (ix : Indexing) (rn rd : Reg) (o : HalfOffset) (s : State) :
    exec (halfLoadInstr k c ix rn rd o) s = s.ifCond c (s.halfLoad k.kind ix rn rd o.offset) := by
  cases k <;> cases o <;> rfl

theorem exec_halfStoreInstr (c : Cond) (ix : Indexing) (rn rd : Reg) (o : HalfOffset) (s : State) :
    exec (halfStoreInstr c ix rn rd o) s = s.ifCond c (s.halfStore ix rn rd o.offset) := by
  cases o <;> rfl

/-- An instruction whose condition fails changes nothing (R96). -/
theorem exec_of_not_passes {i : Instr} {s : State} (h : ¬Passes (condition i) s) : exec i s = .next s := by
  cases i <;> exact State.ifCond_fail h _

/-! ## Values -/

theorem msb_eq_negative {n : Nat} (r : BitVec n) : r.msb = negative r := BitVec.msb_eq_getLsbD_last r

theorem beq_zero_eq_isZero {n : Nat} (r : BitVec n) : (r == 0) = isZero r := by
  rw [Bool.eq_iff_iff]
  simp [isZero, ← BitVec.toNat_inj]

theorem storePart_eq (w : Width) (v : Word) :
    storePart w v = BitVec.setWidth 32 (BitVec.setWidth (8 * widthBytes w) v) := by
  cases w <;> simp only [storePart, widthBytes] <;> apply BitVec.eq_of_getLsbD_eq <;> intro k hk <;> simp

theorem State.storeValue_eq (s : State) (i : Reg) : s.storeValue i = storedReg s i := by
  unfold State.storeValue storedReg storedPc
  split
  · cases s.cfg.storePcBias <;> rfl
  · rfl

theorem State.hiReg_eq (s : State) (i : Reg) : s.hiReg i = formFiveReg s i := by
  unfold State.hiReg formFiveReg State.regT
  by_cases h : i = 15
  · cases s.cfg.thumbHiregPcAlign <;> simp [h]
  · simp [h]

/-! ## Register lists -/

theorem allRegs_eq : allRegs = List.finRange 16 := by decide

theorem listedRegs_length (list : BitVec 16) : (listedRegs list).length = listSize list := by
  rw [listedRegs, allRegs_eq, listSize]

theorem mem_listedRegs {list : BitVec 16} {i : Reg} : i ∈ listedRegs list ↔ list.getLsbD i.val = true := by
  rw [listedRegs, allRegs_eq, List.mem_filter]
  simp only [List.mem_finRange, true_and]

theorem listedRegs_nodup (list : BitVec 16) : (listedRegs list).Nodup := by
  rw [listedRegs, allRegs_eq]
  exact (List.nodup_finRange 16).filter _

/-- In a rising list, an element that a test keeps stands after as many kept ones as are below it. -/
theorem filter_getElem?_below {n : Nat} (p : Fin n → Bool) {i : Fin n} (hp : p i = true) : ∀ {l : List (Fin n)},
    l.Pairwise (· < ·) → i ∈ l → (l.filter p)[(l.filter fun j => j < i && p j).length]? = some i
  | [], _, h => by cases h
  | x :: l, hs, hm => by
    rw [List.pairwise_cons] at hs
    rcases List.mem_cons.1 hm with e | hm'
    · subst e
      have hn : (i :: l).filter (fun j => j < i && p j) = [] := by
        rw [List.filter_eq_nil_iff]
        intro j hj
        rcases List.mem_cons.1 hj with rfl | hj'
        · simp
        · have := hs.1 j hj'
          simp [not_lt_of_gt this]
      rw [hn, List.filter_cons_of_pos hp]
      rfl
    · have hx : x < i := hs.1 i hm'
      have ih := filter_getElem?_below p hp hs.2 hm'
      by_cases hpx : p x = true
      · rw [List.filter_cons_of_pos hpx, List.filter_cons_of_pos (by simp [hx, hpx]), List.length_cons,
          List.getElem?_cons_succ]
        exact ih
      · rw [List.filter_cons_of_neg hpx, List.filter_cons_of_neg (by simp [hpx])]
        exact ih

/-- A listed register stands in the list at its place (R281). -/
theorem listedRegs_place {list : BitVec 16} {i : Reg} (h : list.getLsbD i.val = true) :
    (listedRegs list)[place list i]? = some i := by
  rw [listedRegs, allRegs_eq, place]
  exact filter_getElem?_below (fun j => list.getLsbD j.val) h (List.pairwise_lt_finRange 16) (List.mem_finRange i)

end Sys2Proof.Machine
end

