-- ==== Sys2Proof/Laws/PerInstr.lean ====
section
/-! SUPPORT. Per instruction: its word selects its row, and the row gives the instruction back. With `lookup_of_hits` this is
the round trip of the encoder and the decoder. -/

namespace Sys2Proof

/-- The word of an instruction selects a row of its table, which makes the instruction again; an ARM word's condition field
is the instruction's. -/
def Laws.SelectsRow.Statement (i : Instr) : Prop :=
  match encode i with
  | .arm w => ∃ c, ∃ r ∈ armTable, Cond.ofBits (field w 28 4) = some c ∧ r.hits w = true ∧ r.build c w = i
  | .thumb h => ∃ r ∈ thumbTable, r.hits h = true ∧ r.build h = i

/-! ## Membership -/

theorem mem_armDataRows {r : ArmRow} {k : Nat} (h : armDataRows[k]? = some r) : r ∈ armTable :=
  List.mem_append_left _ (List.mem_append_left _ (List.mem_append_left _ (List.mem_append_left _ (List.mem_append_left _ (List.mem_of_getElem? h)))))

theorem mem_armMultiplyRows {r : ArmRow} {k : Nat} (h : armMultiplyRows[k]? = some r) : r ∈ armTable :=
  List.mem_append_left _ (List.mem_append_left _ (List.mem_append_left _ (List.mem_append_left _ (List.mem_append_right _ (List.mem_of_getElem? h)))))

theorem mem_armPsrRows {r : ArmRow} {k : Nat} (h : armPsrRows[k]? = some r) : r ∈ armTable :=
  List.mem_append_left _ (List.mem_append_left _ (List.mem_append_left _ (List.mem_append_right _ (List.mem_of_getElem? h))))

theorem mem_armTransferRows {r : ArmRow} {k : Nat} (h : armTransferRows[k]? = some r) : r ∈ armTable :=
  List.mem_append_left _ (List.mem_append_left _ (List.mem_append_right _ (List.mem_of_getElem? h)))

theorem mem_armBlockRows {r : ArmRow} {k : Nat} (h : armBlockRows[k]? = some r) : r ∈ armTable :=
  List.mem_append_left _ (List.mem_append_right _ (List.mem_of_getElem? h))

theorem mem_armBranchRows {r : ArmRow} {k : Nat} (h : armBranchRows[k]? = some r) : r ∈ armTable :=
  List.mem_append_right _ (List.mem_of_getElem? h)

theorem mem_thumbAluRows {r : ThumbRow} {k : Nat} (h : thumbAluRows[k]? = some r) : r ∈ thumbTable :=
  List.mem_append_left _ (List.mem_append_left _ (List.mem_of_getElem? h))

theorem mem_thumbTransferRows {r : ThumbRow} {k : Nat} (h : thumbTransferRows[k]? = some r) : r ∈ thumbTable :=
  List.mem_append_left _ (List.mem_append_right _ (List.mem_of_getElem? h))

theorem mem_thumbBranchRows {r : ThumbRow} {k : Nat} (h : thumbBranchRows[k]? = some r) : r ∈ thumbTable :=
  List.mem_append_right _ (List.mem_of_getElem? h)

/-! ## The instructions -/

set_option linter.unusedSimpArgs false
set_option linter.unnecessarySeqFocus false

theorem Laws.SelectsRow.andImm (c : Cond) (sb : Bool) (rn rd : Reg) (rot : BitVec 4) (imm8 : BitVec 8) :
    Laws.SelectsRow.Statement (.andImm c sb rn rd rot imm8) := by
  refine ⟨c, rowAndImm, mem_armDataRows (k := 0) rfl, ?_, ?_, ?_⟩ <;>
    simp (discharger := decide) only [Row.hits, rowAndImm, assemble, List.foldr, field_or, field_put_self,
      field_put_other, or_field, or_and, put_and, BitVec.zero_or, BitVec.or_zero, Cond.ofBits_bits, reg, bit,
      ofBool_beq_one] <;>
    rfl

theorem Laws.SelectsRow.andShImm (c : Cond) (sb : Bool) (rn rd : Reg) (amount : BitVec 5) (ty : ShiftType) (rm : Reg) :
    Laws.SelectsRow.Statement (.andShImm c sb rn rd amount ty rm) := by
  refine ⟨c, rowAndShImm, mem_armDataRows (k := 1) rfl, ?_, ?_, ?_⟩ <;>
    simp (discharger := decide) only [Row.hits, rowAndShImm, assemble, List.foldr, field_or, field_put_self,
      field_put_other, or_field, or_and, put_and, BitVec.zero_or, BitVec.or_zero, Cond.ofBits_bits, reg, bit,
      ofBool_beq_one, shiftType, ShiftType.ofBits_bits] <;>
    rfl

theorem Laws.SelectsRow.andShReg (c : Cond) (sb : Bool) (rn rd rs : Reg) (ty : ShiftType) (rm : Reg) :
    Laws.SelectsRow.Statement (.andShReg c sb rn rd rs ty rm) := by
  refine ⟨c, rowAndShReg, mem_armDataRows (k := 2) rfl, ?_, ?_, ?_⟩ <;>
    simp (discharger := decide) only [Row.hits, rowAndShReg, assemble, List.foldr, field_or, field_put_self,
      field_put_other, or_field, or_and, put_and, BitVec.zero_or, BitVec.or_zero, Cond.ofBits_bits, reg, bit,
      ofBool_beq_one, shiftType, ShiftType.ofBits_bits] <;>
    rfl

theorem Laws.SelectsRow.eorImm (c : Cond) (sb : Bool) (rn rd : Reg) (rot : BitVec 4) (imm8 : BitVec 8) :
    Laws.SelectsRow.Statement (.eorImm c sb rn rd rot imm8) := by
  refine ⟨c, rowEorImm, mem_armDataRows (k := 3) rfl, ?_, ?_, ?_⟩ <;>
    simp (discharger := decide) only [Row.hits, rowEorImm, assemble, List.foldr, field_or, field_put_self,
      field_put_other, or_field, or_and, put_and, BitVec.zero_or, BitVec.or_zero, Cond.ofBits_bits, reg, bit,
      ofBool_beq_one] <;>
    rfl

theorem Laws.SelectsRow.eorShImm (c : Cond) (sb : Bool) (rn rd : Reg) (amount : BitVec 5) (ty : ShiftType) (rm : Reg) :
    Laws.SelectsRow.Statement (.eorShImm c sb rn rd amount ty rm) := by
  refine ⟨c, rowEorShImm, mem_armDataRows (k := 4) rfl, ?_, ?_, ?_⟩ <;>
    simp (discharger := decide) only [Row.hits, rowEorShImm, assemble, List.foldr, field_or, field_put_self,
      field_put_other, or_field, or_and, put_and, BitVec.zero_or, BitVec.or_zero, Cond.ofBits_bits, reg, bit,
      ofBool_beq_one, shiftType, ShiftType.ofBits_bits] <;>
    rfl

theorem Laws.SelectsRow.eorShReg (c : Cond) (sb : Bool) (rn rd rs : Reg) (ty : ShiftType) (rm : Reg) :
    Laws.SelectsRow.Statement (.eorShReg c sb rn rd rs ty rm) := by
  refine ⟨c, rowEorShReg, mem_armDataRows (k := 5) rfl, ?_, ?_, ?_⟩ <;>
    simp (discharger := decide) only [Row.hits, rowEorShReg, assemble, List.foldr, field_or, field_put_self,
      field_put_other, or_field, or_and, put_and, BitVec.zero_or, BitVec.or_zero, Cond.ofBits_bits, reg, bit,
      ofBool_beq_one, shiftType, ShiftType.ofBits_bits] <;>
    rfl

theorem Laws.SelectsRow.subImm (c : Cond) (sb : Bool) (rn rd : Reg) (rot : BitVec 4) (imm8 : BitVec 8) :
    Laws.SelectsRow.Statement (.subImm c sb rn rd rot imm8) := by
  refine ⟨c, rowSubImm, mem_armDataRows (k := 6) rfl, ?_, ?_, ?_⟩ <;>
    simp (discharger := decide) only [Row.hits, rowSubImm, assemble, List.foldr, field_or, field_put_self,
      field_put_other, or_field, or_and, put_and, BitVec.zero_or, BitVec.or_zero, Cond.ofBits_bits, reg, bit,
      ofBool_beq_one] <;>
    rfl

theorem Laws.SelectsRow.subShImm (c : Cond) (sb : Bool) (rn rd : Reg) (amount : BitVec 5) (ty : ShiftType) (rm : Reg) :
    Laws.SelectsRow.Statement (.subShImm c sb rn rd amount ty rm) := by
  refine ⟨c, rowSubShImm, mem_armDataRows (k := 7) rfl, ?_, ?_, ?_⟩ <;>
    simp (discharger := decide) only [Row.hits, rowSubShImm, assemble, List.foldr, field_or, field_put_self,
      field_put_other, or_field, or_and, put_and, BitVec.zero_or, BitVec.or_zero, Cond.ofBits_bits, reg, bit,
      ofBool_beq_one, shiftType, ShiftType.ofBits_bits] <;>
    rfl

theorem Laws.SelectsRow.subShReg (c : Cond) (sb : Bool) (rn rd rs : Reg) (ty : ShiftType) (rm : Reg) :
    Laws.SelectsRow.Statement (.subShReg c sb rn rd rs ty rm) := by
  refine ⟨c, rowSubShReg, mem_armDataRows (k := 8) rfl, ?_, ?_, ?_⟩ <;>
    simp (discharger := decide) only [Row.hits, rowSubShReg, assemble, List.foldr, field_or, field_put_self,
      field_put_other, or_field, or_and, put_and, BitVec.zero_or, BitVec.or_zero, Cond.ofBits_bits, reg, bit,
      ofBool_beq_one, shiftType, ShiftType.ofBits_bits] <;>
    rfl

theorem Laws.SelectsRow.rsbImm (c : Cond) (sb : Bool) (rn rd : Reg) (rot : BitVec 4) (imm8 : BitVec 8) :
    Laws.SelectsRow.Statement (.rsbImm c sb rn rd rot imm8) := by
  refine ⟨c, rowRsbImm, mem_armDataRows (k := 9) rfl, ?_, ?_, ?_⟩ <;>
    simp (discharger := decide) only [Row.hits, rowRsbImm, assemble, List.foldr, field_or, field_put_self,
      field_put_other, or_field, or_and, put_and, BitVec.zero_or, BitVec.or_zero, Cond.ofBits_bits, reg, bit,
      ofBool_beq_one, field_append_four] <;>
    rfl

theorem Laws.SelectsRow.rsbShImm (c : Cond) (sb : Bool) (rn rd : Reg) (amount : BitVec 5) (ty : ShiftType) (rm : Reg) :
    Laws.SelectsRow.Statement (.rsbShImm c sb rn rd amount ty rm) := by
  refine ⟨c, rowRsbShImm, mem_armDataRows (k := 10) rfl, ?_, ?_, ?_⟩ <;>
    simp (discharger := decide) only [Row.hits, rowRsbShImm, assemble, List.foldr, field_or, field_put_self,
      field_put_other, or_field, or_and, put_and, BitVec.zero_or, BitVec.or_zero, Cond.ofBits_bits, reg, bit,
      ofBool_beq_one, shiftType, ShiftType.ofBits_bits] <;>
    rfl

theorem Laws.SelectsRow.rsbShReg (c : Cond) (sb : Bool) (rn rd rs : Reg) (ty : ShiftType) (rm : Reg) :
    Laws.SelectsRow.Statement (.rsbShReg c sb rn rd rs ty rm) := by
  refine ⟨c, rowRsbShReg, mem_armDataRows (k := 11) rfl, ?_, ?_, ?_⟩ <;>
    simp (discharger := decide) only [Row.hits, rowRsbShReg, assemble, List.foldr, field_or, field_put_self,
      field_put_other, or_field, or_and, put_and, BitVec.zero_or, BitVec.or_zero, Cond.ofBits_bits, reg, bit,
      ofBool_beq_one, shiftType, ShiftType.ofBits_bits] <;>
    rfl

theorem Laws.SelectsRow.addImm (c : Cond) (sb : Bool) (rn rd : Reg) (rot : BitVec 4) (imm8 : BitVec 8) :
    Laws.SelectsRow.Statement (.addImm c sb rn rd rot imm8) := by
  refine ⟨c, rowAddImm, mem_armDataRows (k := 12) rfl, ?_, ?_, ?_⟩ <;>
    simp (discharger := decide) only [Row.hits, rowAddImm, assemble, List.foldr, field_or, field_put_self,
      field_put_other, or_field, or_and, put_and, BitVec.zero_or, BitVec.or_zero, Cond.ofBits_bits, reg, bit,
      ofBool_beq_one] <;>
    rfl

theorem Laws.SelectsRow.addShImm (c : Cond) (sb : Bool) (rn rd : Reg) (amount : BitVec 5) (ty : ShiftType) (rm : Reg) :
    Laws.SelectsRow.Statement (.addShImm c sb rn rd amount ty rm) := by
  refine ⟨c, rowAddShImm, mem_armDataRows (k := 13) rfl, ?_, ?_, ?_⟩ <;>
    simp (discharger := decide) only [Row.hits, rowAddShImm, assemble, List.foldr, field_or, field_put_self,
      field_put_other, or_field, or_and, put_and, BitVec.zero_or, BitVec.or_zero, Cond.ofBits_bits, reg, bit,
      ofBool_beq_one, shiftType, ShiftType.ofBits_bits] <;>
    rfl

theorem Laws.SelectsRow.addShReg (c : Cond) (sb : Bool) (rn rd rs : Reg) (ty : ShiftType) (rm : Reg) :
    Laws.SelectsRow.Statement (.addShReg c sb rn rd rs ty rm) := by
  refine ⟨c, rowAddShReg, mem_armDataRows (k := 14) rfl, ?_, ?_, ?_⟩ <;>
    simp (discharger := decide) only [Row.hits, rowAddShReg, assemble, List.foldr, field_or, field_put_self,
      field_put_other, or_field, or_and, put_and, BitVec.zero_or, BitVec.or_zero, Cond.ofBits_bits, reg, bit,
      ofBool_beq_one, shiftType, ShiftType.ofBits_bits] <;>
    rfl

theorem Laws.SelectsRow.adcImm (c : Cond) (sb : Bool) (rn rd : Reg) (rot : BitVec 4) (imm8 : BitVec 8) :
    Laws.SelectsRow.Statement (.adcImm c sb rn rd rot imm8) := by
  refine ⟨c, rowAdcImm, mem_armDataRows (k := 15) rfl, ?_, ?_, ?_⟩ <;>
    simp (discharger := decide) only [Row.hits, rowAdcImm, assemble, List.foldr, field_or, field_put_self,
      field_put_other, or_field, or_and, put_and, BitVec.zero_or, BitVec.or_zero, Cond.ofBits_bits, reg, bit,
      ofBool_beq_one] <;>
    rfl

theorem Laws.SelectsRow.adcShImm (c : Cond) (sb : Bool) (rn rd : Reg) (amount : BitVec 5) (ty : ShiftType) (rm : Reg) :
    Laws.SelectsRow.Statement (.adcShImm c sb rn rd amount ty rm) := by
  refine ⟨c, rowAdcShImm, mem_armDataRows (k := 16) rfl, ?_, ?_, ?_⟩ <;>
    simp (discharger := decide) only [Row.hits, rowAdcShImm, assemble, List.foldr, field_or, field_put_self,
      field_put_other, or_field, or_and, put_and, BitVec.zero_or, BitVec.or_zero, Cond.ofBits_bits, reg, bit,
      ofBool_beq_one, shiftType, ShiftType.ofBits_bits] <;>
    rfl

theorem Laws.SelectsRow.adcShReg (c : Cond) (sb : Bool) (rn rd rs : Reg) (ty : ShiftType) (rm : Reg) :
    Laws.SelectsRow.Statement (.adcShReg c sb rn rd rs ty rm) := by
  refine ⟨c, rowAdcShReg, mem_armDataRows (k := 17) rfl, ?_, ?_, ?_⟩ <;>
    simp (discharger := decide) only [Row.hits, rowAdcShReg, assemble, List.foldr, field_or, field_put_self,
      field_put_other, or_field, or_and, put_and, BitVec.zero_or, BitVec.or_zero, Cond.ofBits_bits, reg, bit,
      ofBool_beq_one, shiftType, ShiftType.ofBits_bits] <;>
    rfl

theorem Laws.SelectsRow.sbcImm (c : Cond) (sb : Bool) (rn rd : Reg) (rot : BitVec 4) (imm8 : BitVec 8) :
    Laws.SelectsRow.Statement (.sbcImm c sb rn rd rot imm8) := by
  refine ⟨c, rowSbcImm, mem_armDataRows (k := 18) rfl, ?_, ?_, ?_⟩ <;>
    simp (discharger := decide) only [Row.hits, rowSbcImm, assemble, List.foldr, field_or, field_put_self,
      field_put_other, or_field, or_and, put_and, BitVec.zero_or, BitVec.or_zero, Cond.ofBits_bits, reg, bit,
      ofBool_beq_one] <;>
    rfl

theorem Laws.SelectsRow.sbcShImm (c : Cond) (sb : Bool) (rn rd : Reg) (amount : BitVec 5) (ty : ShiftType) (rm : Reg) :
    Laws.SelectsRow.Statement (.sbcShImm c sb rn rd amount ty rm) := by
  refine ⟨c, rowSbcShImm, mem_armDataRows (k := 19) rfl, ?_, ?_, ?_⟩ <;>
    simp (discharger := decide) only [Row.hits, rowSbcShImm, assemble, List.foldr, field_or, field_put_self,
      field_put_other, or_field, or_and, put_and, BitVec.zero_or, BitVec.or_zero, Cond.ofBits_bits, reg, bit,
      ofBool_beq_one, shiftType, ShiftType.ofBits_bits] <;>
    rfl

theorem Laws.SelectsRow.sbcShReg (c : Cond) (sb : Bool) (rn rd rs : Reg) (ty : ShiftType) (rm : Reg) :
    Laws.SelectsRow.Statement (.sbcShReg c sb rn rd rs ty rm) := by
  refine ⟨c, rowSbcShReg, mem_armDataRows (k := 20) rfl, ?_, ?_, ?_⟩ <;>
    simp (discharger := decide) only [Row.hits, rowSbcShReg, assemble, List.foldr, field_or, field_put_self,
      field_put_other, or_field, or_and, put_and, BitVec.zero_or, BitVec.or_zero, Cond.ofBits_bits, reg, bit,
      ofBool_beq_one, shiftType, ShiftType.ofBits_bits] <;>
    rfl

theorem Laws.SelectsRow.rscImm (c : Cond) (sb : Bool) (rn rd : Reg) (rot : BitVec 4) (imm8 : BitVec 8) :
    Laws.SelectsRow.Statement (.rscImm c sb rn rd rot imm8) := by
  refine ⟨c, rowRscImm, mem_armDataRows (k := 21) rfl, ?_, ?_, ?_⟩ <;>
    simp (discharger := decide) only [Row.hits, rowRscImm, assemble, List.foldr, field_or, field_put_self,
      field_put_other, or_field, or_and, put_and, BitVec.zero_or, BitVec.or_zero, Cond.ofBits_bits, reg, bit,
      ofBool_beq_one] <;>
    rfl

theorem Laws.SelectsRow.rscShImm (c : Cond) (sb : Bool) (rn rd : Reg) (amount : BitVec 5) (ty : ShiftType) (rm : Reg) :
    Laws.SelectsRow.Statement (.rscShImm c sb rn rd amount ty rm) := by
  refine ⟨c, rowRscShImm, mem_armDataRows (k := 22) rfl, ?_, ?_, ?_⟩ <;>
    simp (discharger := decide) only [Row.hits, rowRscShImm, assemble, List.foldr, field_or, field_put_self,
      field_put_other, or_field, or_and, put_and, BitVec.zero_or, BitVec.or_zero, Cond.ofBits_bits, reg, bit,
      ofBool_beq_one, shiftType, ShiftType.ofBits_bits] <;>
    rfl

theorem Laws.SelectsRow.rscShReg (c : Cond) (sb : Bool) (rn rd rs : Reg) (ty : ShiftType) (rm : Reg) :
    Laws.SelectsRow.Statement (.rscShReg c sb rn rd rs ty rm) := by
  refine ⟨c, rowRscShReg, mem_armDataRows (k := 23) rfl, ?_, ?_, ?_⟩ <;>
    simp (discharger := decide) only [Row.hits, rowRscShReg, assemble, List.foldr, field_or, field_put_self,
      field_put_other, or_field, or_and, put_and, BitVec.zero_or, BitVec.or_zero, Cond.ofBits_bits, reg, bit,
      ofBool_beq_one, shiftType, ShiftType.ofBits_bits] <;>
    rfl

theorem Laws.SelectsRow.tstImm (c : Cond) (rn rd : Reg) (rot : BitVec 4) (imm8 : BitVec 8) :
    Laws.SelectsRow.Statement (.tstImm c rn rd rot imm8) := by
  refine ⟨c, rowTstImm, mem_armDataRows (k := 24) rfl, ?_, ?_, ?_⟩ <;>
    simp (discharger := decide) only [Row.hits, rowTstImm, assemble, List.foldr, field_or, field_put_self,
      field_put_other, or_field, or_and, put_and, BitVec.zero_or, BitVec.or_zero, Cond.ofBits_bits, reg] <;>
    rfl

theorem Laws.SelectsRow.tstShImm (c : Cond) (rn rd : Reg) (amount : BitVec 5) (ty : ShiftType) (rm : Reg) :
    Laws.SelectsRow.Statement (.tstShImm c rn rd amount ty rm) := by
  refine ⟨c, rowTstShImm, mem_armDataRows (k := 25) rfl, ?_, ?_, ?_⟩ <;>
    simp (discharger := decide) only [Row.hits, rowTstShImm, assemble, List.foldr, field_or, field_put_self,
      field_put_other, or_field, or_and, put_and, BitVec.zero_or, BitVec.or_zero, Cond.ofBits_bits, reg, shiftType,
      ShiftType.ofBits_bits] <;>
    rfl

theorem Laws.SelectsRow.tstShReg (c : Cond) (rn rd rs : Reg) (ty : ShiftType) (rm : Reg) :
    Laws.SelectsRow.Statement (.tstShReg c rn rd rs ty rm) := by
  refine ⟨c, rowTstShReg, mem_armDataRows (k := 26) rfl, ?_, ?_, ?_⟩ <;>
    simp (discharger := decide) only [Row.hits, rowTstShReg, assemble, List.foldr, field_or, field_put_self,
      field_put_other, or_field, or_and, put_and, BitVec.zero_or, BitVec.or_zero, Cond.ofBits_bits, reg, shiftType,
      ShiftType.ofBits_bits] <;>
    rfl

theorem Laws.SelectsRow.teqImm (c : Cond) (rn rd : Reg) (rot : BitVec 4) (imm8 : BitVec 8) :
    Laws.SelectsRow.Statement (.teqImm c rn rd rot imm8) := by
  refine ⟨c, rowTeqImm, mem_armDataRows (k := 27) rfl, ?_, ?_, ?_⟩ <;>
    simp (discharger := decide) only [Row.hits, rowTeqImm, assemble, List.foldr, field_or, field_put_self,
      field_put_other, or_field, or_and, put_and, BitVec.zero_or, BitVec.or_zero, Cond.ofBits_bits, reg] <;>
    rfl

theorem Laws.SelectsRow.teqShImm (c : Cond) (rn rd : Reg) (amount : BitVec 5) (ty : ShiftType) (rm : Reg) :
    Laws.SelectsRow.Statement (.teqShImm c rn rd amount ty rm) := by
  refine ⟨c, rowTeqShImm, mem_armDataRows (k := 28) rfl, ?_, ?_, ?_⟩ <;>
    simp (discharger := decide) only [Row.hits, rowTeqShImm, assemble, List.foldr, field_or, field_put_self,
      field_put_other, or_field, or_and, put_and, BitVec.zero_or, BitVec.or_zero, Cond.ofBits_bits, reg, shiftType,
      ShiftType.ofBits_bits] <;>
    rfl

theorem Laws.SelectsRow.teqShReg (c : Cond) (rn rd rs : Reg) (ty : ShiftType) (rm : Reg) :
    Laws.SelectsRow.Statement (.teqShReg c rn rd rs ty rm) := by
  refine ⟨c, rowTeqShReg, mem_armDataRows (k := 29) rfl, ?_, ?_, ?_⟩ <;>
    simp (discharger := decide) only [Row.hits, rowTeqShReg, assemble, List.foldr, field_or, field_put_self,
      field_put_other, or_field, or_and, put_and, BitVec.zero_or, BitVec.or_zero, Cond.ofBits_bits, reg, shiftType,
      ShiftType.ofBits_bits] <;>
    rfl

theorem Laws.SelectsRow.cmpImm (c : Cond) (rn rd : Reg) (rot : BitVec 4) (imm8 : BitVec 8) :
    Laws.SelectsRow.Statement (.cmpImm c rn rd rot imm8) := by
  refine ⟨c, rowCmpImm, mem_armDataRows (k := 30) rfl, ?_, ?_, ?_⟩ <;>
    simp (discharger := decide) only [Row.hits, rowCmpImm, assemble, List.foldr, field_or, field_put_self,
      field_put_other, or_field, or_and, put_and, BitVec.zero_or, BitVec.or_zero, Cond.ofBits_bits, reg] <;>
    rfl

theorem Laws.SelectsRow.cmpShImm (c : Cond) (rn rd : Reg) (amount : BitVec 5) (ty : ShiftType) (rm : Reg) :
    Laws.SelectsRow.Statement (.cmpShImm c rn rd amount ty rm) := by
  refine ⟨c, rowCmpShImm, mem_armDataRows (k := 31) rfl, ?_, ?_, ?_⟩ <;>
    simp (discharger := decide) only [Row.hits, rowCmpShImm, assemble, List.foldr, field_or, field_put_self,
      field_put_other, or_field, or_and, put_and, BitVec.zero_or, BitVec.or_zero, Cond.ofBits_bits, reg, shiftType,
      ShiftType.ofBits_bits] <;>
    rfl

theorem Laws.SelectsRow.cmpShReg (c : Cond) (rn rd rs : Reg) (ty : ShiftType) (rm : Reg) :
    Laws.SelectsRow.Statement (.cmpShReg c rn rd rs ty rm) := by
  refine ⟨c, rowCmpShReg, mem_armDataRows (k := 32) rfl, ?_, ?_, ?_⟩ <;>
    simp (discharger := decide) only [Row.hits, rowCmpShReg, assemble, List.foldr, field_or, field_put_self,
      field_put_other, or_field, or_and, put_and, BitVec.zero_or, BitVec.or_zero, Cond.ofBits_bits, reg, shiftType,
      ShiftType.ofBits_bits] <;>
    rfl

theorem Laws.SelectsRow.cmnImm (c : Cond) (rn rd : Reg) (rot : BitVec 4) (imm8 : BitVec 8) :
    Laws.SelectsRow.Statement (.cmnImm c rn rd rot imm8) := by
  refine ⟨c, rowCmnImm, mem_armDataRows (k := 33) rfl, ?_, ?_, ?_⟩ <;>
    simp (discharger := decide) only [Row.hits, rowCmnImm, assemble, List.foldr, field_or, field_put_self,
      field_put_other, or_field, or_and, put_and, BitVec.zero_or, BitVec.or_zero, Cond.ofBits_bits, reg] <;>
    rfl

theorem Laws.SelectsRow.cmnShImm (c : Cond) (rn rd : Reg) (amount : BitVec 5) (ty : ShiftType) (rm : Reg) :
    Laws.SelectsRow.Statement (.cmnShImm c rn rd amount ty rm) := by
  refine ⟨c, rowCmnShImm, mem_armDataRows (k := 34) rfl, ?_, ?_, ?_⟩ <;>
    simp (discharger := decide) only [Row.hits, rowCmnShImm, assemble, List.foldr, field_or, field_put_self,
      field_put_other, or_field, or_and, put_and, BitVec.zero_or, BitVec.or_zero, Cond.ofBits_bits, reg, shiftType,
      ShiftType.ofBits_bits] <;>
    rfl

theorem Laws.SelectsRow.cmnShReg (c : Cond) (rn rd rs : Reg) (ty : ShiftType) (rm : Reg) :
    Laws.SelectsRow.Statement (.cmnShReg c rn rd rs ty rm) := by
  refine ⟨c, rowCmnShReg, mem_armDataRows (k := 35) rfl, ?_, ?_, ?_⟩ <;>
    simp (discharger := decide) only [Row.hits, rowCmnShReg, assemble, List.foldr, field_or, field_put_self,
      field_put_other, or_field, or_and, put_and, BitVec.zero_or, BitVec.or_zero, Cond.ofBits_bits, reg, shiftType,
      ShiftType.ofBits_bits] <;>
    rfl

theorem Laws.SelectsRow.orrImm (c : Cond) (sb : Bool) (rn rd : Reg) (rot : BitVec 4) (imm8 : BitVec 8) :
    Laws.SelectsRow.Statement (.orrImm c sb rn rd rot imm8) := by
  refine ⟨c, rowOrrImm, mem_armDataRows (k := 36) rfl, ?_, ?_, ?_⟩ <;>
    simp (discharger := decide) only [Row.hits, rowOrrImm, assemble, List.foldr, field_or, field_put_self,
      field_put_other, or_field, or_and, put_and, BitVec.zero_or, BitVec.or_zero, Cond.ofBits_bits, reg, bit,
      ofBool_beq_one] <;>
    rfl

theorem Laws.SelectsRow.orrShImm (c : Cond) (sb : Bool) (rn rd : Reg) (amount : BitVec 5) (ty : ShiftType) (rm : Reg) :
    Laws.SelectsRow.Statement (.orrShImm c sb rn rd amount ty rm) := by
  refine ⟨c, rowOrrShImm, mem_armDataRows (k := 37) rfl, ?_, ?_, ?_⟩ <;>
    simp (discharger := decide) only [Row.hits, rowOrrShImm, assemble, List.foldr, field_or, field_put_self,
      field_put_other, or_field, or_and, put_and, BitVec.zero_or, BitVec.or_zero, Cond.ofBits_bits, reg, bit,
      ofBool_beq_one, shiftType, ShiftType.ofBits_bits] <;>
    rfl

theorem Laws.SelectsRow.orrShReg (c : Cond) (sb : Bool) (rn rd rs : Reg) (ty : ShiftType) (rm : Reg) :
    Laws.SelectsRow.Statement (.orrShReg c sb rn rd rs ty rm) := by
  refine ⟨c, rowOrrShReg, mem_armDataRows (k := 38) rfl, ?_, ?_, ?_⟩ <;>
    simp (discharger := decide) only [Row.hits, rowOrrShReg, assemble, List.foldr, field_or, field_put_self,
      field_put_other, or_field, or_and, put_and, BitVec.zero_or, BitVec.or_zero, Cond.ofBits_bits, reg, bit,
      ofBool_beq_one, shiftType, ShiftType.ofBits_bits] <;>
    rfl

theorem Laws.SelectsRow.movImm (c : Cond) (sb : Bool) (rn rd : Reg) (rot : BitVec 4) (imm8 : BitVec 8) :
    Laws.SelectsRow.Statement (.movImm c sb rn rd rot imm8) := by
  refine ⟨c, rowMovImm, mem_armDataRows (k := 39) rfl, ?_, ?_, ?_⟩ <;>
    simp (discharger := decide) only [Row.hits, rowMovImm, assemble, List.foldr, field_or, field_put_self,
      field_put_other, or_field, or_and, put_and, BitVec.zero_or, BitVec.or_zero, Cond.ofBits_bits, reg, bit,
      ofBool_beq_one] <;>
    rfl

theorem Laws.SelectsRow.movShImm (c : Cond) (sb : Bool) (rn rd : Reg) (amount : BitVec 5) (ty : ShiftType) (rm : Reg) :
    Laws.SelectsRow.Statement (.movShImm c sb rn rd amount ty rm) := by
  refine ⟨c, rowMovShImm, mem_armDataRows (k := 40) rfl, ?_, ?_, ?_⟩ <;>
    simp (discharger := decide) only [Row.hits, rowMovShImm, assemble, List.foldr, field_or, field_put_self,
      field_put_other, or_field, or_and, put_and, BitVec.zero_or, BitVec.or_zero, Cond.ofBits_bits, reg, bit,
      ofBool_beq_one, shiftType, ShiftType.ofBits_bits] <;>
    rfl

theorem Laws.SelectsRow.movShReg (c : Cond) (sb : Bool) (rn rd rs : Reg) (ty : ShiftType) (rm : Reg) :
    Laws.SelectsRow.Statement (.movShReg c sb rn rd rs ty rm) := by
  refine ⟨c, rowMovShReg, mem_armDataRows (k := 41) rfl, ?_, ?_, ?_⟩ <;>
    simp (discharger := decide) only [Row.hits, rowMovShReg, assemble, List.foldr, field_or, field_put_self,
      field_put_other, or_field, or_and, put_and, BitVec.zero_or, BitVec.or_zero, Cond.ofBits_bits, reg, bit,
      ofBool_beq_one, shiftType, ShiftType.ofBits_bits] <;>
    rfl

theorem Laws.SelectsRow.bicImm (c : Cond) (sb : Bool) (rn rd : Reg) (rot : BitVec 4) (imm8 : BitVec 8) :
    Laws.SelectsRow.Statement (.bicImm c sb rn rd rot imm8) := by
  refine ⟨c, rowBicImm, mem_armDataRows (k := 42) rfl, ?_, ?_, ?_⟩ <;>
    simp (discharger := decide) only [Row.hits, rowBicImm, assemble, List.foldr, field_or, field_put_self,
      field_put_other, or_field, or_and, put_and, BitVec.zero_or, BitVec.or_zero, Cond.ofBits_bits, reg, bit,
      ofBool_beq_one] <;>
    rfl

theorem Laws.SelectsRow.bicShImm (c : Cond) (sb : Bool) (rn rd : Reg) (amount : BitVec 5) (ty : ShiftType) (rm : Reg) :
    Laws.SelectsRow.Statement (.bicShImm c sb rn rd amount ty rm) := by
  refine ⟨c, rowBicShImm, mem_armDataRows (k := 43) rfl, ?_, ?_, ?_⟩ <;>
    simp (discharger := decide) only [Row.hits, rowBicShImm, assemble, List.foldr, field_or, field_put_self,
      field_put_other, or_field, or_and, put_and, BitVec.zero_or, BitVec.or_zero, Cond.ofBits_bits, reg, bit,
      ofBool_beq_one, shiftType, ShiftType.ofBits_bits] <;>
    rfl

theorem Laws.SelectsRow.bicShReg (c : Cond) (sb : Bool) (rn rd rs : Reg) (ty : ShiftType) (rm : Reg) :
    Laws.SelectsRow.Statement (.bicShReg c sb rn rd rs ty rm) := by
  refine ⟨c, rowBicShReg, mem_armDataRows (k := 44) rfl, ?_, ?_, ?_⟩ <;>
    simp (discharger := decide) only [Row.hits, rowBicShReg, assemble, List.foldr, field_or, field_put_self,
      field_put_other, or_field, or_and, put_and, BitVec.zero_or, BitVec.or_zero, Cond.ofBits_bits, reg, bit,
      ofBool_beq_one, shiftType, ShiftType.ofBits_bits] <;>
    rfl

theorem Laws.SelectsRow.mvnImm (c : Cond) (sb : Bool) (rn rd : Reg) (rot : BitVec 4) (imm8 : BitVec 8) :
    Laws.SelectsRow.Statement (.mvnImm c sb rn rd rot imm8) := by
  refine ⟨c, rowMvnImm, mem_armDataRows (k := 45) rfl, ?_, ?_, ?_⟩ <;>
    simp (discharger := decide) only [Row.hits, rowMvnImm, assemble, List.foldr, field_or, field_put_self,
      field_put_other, or_field, or_and, put_and, BitVec.zero_or, BitVec.or_zero, Cond.ofBits_bits, reg, bit,
      ofBool_beq_one] <;>
    rfl

theorem Laws.SelectsRow.mvnShImm (c : Cond) (sb : Bool) (rn rd : Reg) (amount : BitVec 5) (ty : ShiftType) (rm : Reg) :
    Laws.SelectsRow.Statement (.mvnShImm c sb rn rd amount ty rm) := by
  refine ⟨c, rowMvnShImm, mem_armDataRows (k := 46) rfl, ?_, ?_, ?_⟩ <;>
    simp (discharger := decide) only [Row.hits, rowMvnShImm, assemble, List.foldr, field_or, field_put_self,
      field_put_other, or_field, or_and, put_and, BitVec.zero_or, BitVec.or_zero, Cond.ofBits_bits, reg, bit,
      ofBool_beq_one, shiftType, ShiftType.ofBits_bits] <;>
    rfl

theorem Laws.SelectsRow.mvnShReg (c : Cond) (sb : Bool) (rn rd rs : Reg) (ty : ShiftType) (rm : Reg) :
    Laws.SelectsRow.Statement (.mvnShReg c sb rn rd rs ty rm) := by
  refine ⟨c, rowMvnShReg, mem_armDataRows (k := 47) rfl, ?_, ?_, ?_⟩ <;>
    simp (discharger := decide) only [Row.hits, rowMvnShReg, assemble, List.foldr, field_or, field_put_self,
      field_put_other, or_field, or_and, put_and, BitVec.zero_or, BitVec.or_zero, Cond.ofBits_bits, reg, bit,
      ofBool_beq_one, shiftType, ShiftType.ofBits_bits] <;>
    rfl

theorem Laws.SelectsRow.mul (c : Cond) (sb : Bool) (rd rn rs rm : Reg) :
    Laws.SelectsRow.Statement (.mul c sb rd rn rs rm) := by
  refine ⟨c, rowMul, mem_armMultiplyRows (k := 0) rfl, ?_, ?_, ?_⟩ <;>
    simp (discharger := decide) only [Row.hits, rowMul, assemble, List.foldr, field_or, field_put_self,
      field_put_other, or_field, or_and, put_and, BitVec.zero_or, BitVec.or_zero, Cond.ofBits_bits, reg, bit,
      ofBool_beq_one] <;>
    rfl

theorem Laws.SelectsRow.mla (c : Cond) (sb : Bool) (rd rn rs rm : Reg) :
    Laws.SelectsRow.Statement (.mla c sb rd rn rs rm) := by
  refine ⟨c, rowMla, mem_armMultiplyRows (k := 1) rfl, ?_, ?_, ?_⟩ <;>
    simp (discharger := decide) only [Row.hits, rowMla, assemble, List.foldr, field_or, field_put_self,
      field_put_other, or_field, or_and, put_and, BitVec.zero_or, BitVec.or_zero, Cond.ofBits_bits, reg, bit,
      ofBool_beq_one] <;>
    rfl

theorem Laws.SelectsRow.umull (c : Cond) (sb : Bool) (rdHi rdLo rs rm : Reg) :
    Laws.SelectsRow.Statement (.umull c sb rdHi rdLo rs rm) := by
  refine ⟨c, rowUmull, mem_armMultiplyRows (k := 2) rfl, ?_, ?_, ?_⟩ <;>
    simp (discharger := decide) only [Row.hits, rowUmull, assemble, List.foldr, field_or, field_put_self,
      field_put_other, or_field, or_and, put_and, BitVec.zero_or, BitVec.or_zero, Cond.ofBits_bits, reg, bit,
      ofBool_beq_one] <;>
    rfl

theorem Laws.SelectsRow.umlal (c : Cond) (sb : Bool) (rdHi rdLo rs rm : Reg) :
    Laws.SelectsRow.Statement (.umlal c sb rdHi rdLo rs rm) := by
  refine ⟨c, rowUmlal, mem_armMultiplyRows (k := 3) rfl, ?_, ?_, ?_⟩ <;>
    simp (discharger := decide) only [Row.hits, rowUmlal, assemble, List.foldr, field_or, field_put_self,
      field_put_other, or_field, or_and, put_and, BitVec.zero_or, BitVec.or_zero, Cond.ofBits_bits, reg, bit,
      ofBool_beq_one] <;>
    rfl

theorem Laws.SelectsRow.smull (c : Cond) (sb : Bool) (rdHi rdLo rs rm : Reg) :
    Laws.SelectsRow.Statement (.smull c sb rdHi rdLo rs rm) := by
  refine ⟨c, rowSmull, mem_armMultiplyRows (k := 4) rfl, ?_, ?_, ?_⟩ <;>
    simp (discharger := decide) only [Row.hits, rowSmull, assemble, List.foldr, field_or, field_put_self,
      field_put_other, or_field, or_and, put_and, BitVec.zero_or, BitVec.or_zero, Cond.ofBits_bits, reg, bit,
      ofBool_beq_one] <;>
    rfl

theorem Laws.SelectsRow.smlal (c : Cond) (sb : Bool) (rdHi rdLo rs rm : Reg) :
    Laws.SelectsRow.Statement (.smlal c sb rdHi rdLo rs rm) := by
  refine ⟨c, rowSmlal, mem_armMultiplyRows (k := 5) rfl, ?_, ?_, ?_⟩ <;>
    simp (discharger := decide) only [Row.hits, rowSmlal, assemble, List.foldr, field_or, field_put_self,
      field_put_other, or_field, or_and, put_and, BitVec.zero_or, BitVec.or_zero, Cond.ofBits_bits, reg, bit,
      ofBool_beq_one] <;>
    rfl

theorem Laws.SelectsRow.mrs (c : Cond) (ps : Bool) (rd : Reg) : Laws.SelectsRow.Statement (.mrs c ps rd) := by
  refine ⟨c, rowMrs, mem_armPsrRows (k := 0) rfl, ?_, ?_, ?_⟩ <;>
    simp (discharger := decide) only [Row.hits, rowMrs, assemble, List.foldr, field_or, field_put_self,
      field_put_other, or_field, or_and, put_and, BitVec.zero_or, BitVec.or_zero, Cond.ofBits_bits, reg, bit,
      ofBool_beq_one] <;>
    rfl

theorem Laws.SelectsRow.msrReg (c : Cond) (ps : Bool) (mask : BitVec 4) (rm : Reg) :
    Laws.SelectsRow.Statement (.msrReg c ps mask rm) := by
  refine ⟨c, rowMsrReg, mem_armPsrRows (k := 1) rfl, ?_, ?_, ?_⟩ <;>
    simp (discharger := decide) only [Row.hits, rowMsrReg, assemble, List.foldr, field_or, field_put_self,
      field_put_other, or_field, or_and, put_and, BitVec.zero_or, BitVec.or_zero, Cond.ofBits_bits, reg, bit,
      ofBool_beq_one] <;>
    rfl

theorem Laws.SelectsRow.msrImm (c : Cond) (ps : Bool) (mask rot : BitVec 4) (imm8 : BitVec 8) :
    Laws.SelectsRow.Statement (.msrImm c ps mask rot imm8) := by
  refine ⟨c, rowMsrImm, mem_armPsrRows (k := 2) rfl, ?_, ?_, ?_⟩ <;>
    simp (discharger := decide) only [Row.hits, rowMsrImm, assemble, List.foldr, field_or, field_put_self,
      field_put_other, or_field, or_and, put_and, BitVec.zero_or, BitVec.or_zero, Cond.ofBits_bits, reg, bit,
      ofBool_beq_one] <;>
    rfl

theorem Laws.SelectsRow.ldrImmPre (c : Cond) (up w : Bool) (rn rd : Reg) (imm12 : BitVec 12) :
    Laws.SelectsRow.Statement (.ldrImmPre c up w rn rd imm12) := by
  refine ⟨c, rowLdrImmPre, mem_armTransferRows (k := 0) rfl, ?_, ?_, ?_⟩ <;>
    simp (discharger := decide) only [Row.hits, rowLdrImmPre, assemble, List.foldr, field_or, field_put_self,
      field_put_other, or_field, or_and, put_and, BitVec.zero_or, BitVec.or_zero, Cond.ofBits_bits, reg, bit,
      ofBool_beq_one] <;>
    rfl

theorem Laws.SelectsRow.ldrImmPost (c : Cond) (up : Bool) (rn rd : Reg) (imm12 : BitVec 12) :
    Laws.SelectsRow.Statement (.ldrImmPost c up rn rd imm12) := by
  refine ⟨c, rowLdrImmPost, mem_armTransferRows (k := 1) rfl, ?_, ?_, ?_⟩ <;>
    simp (discharger := decide) only [Row.hits, rowLdrImmPost, assemble, List.foldr, field_or, field_put_self,
      field_put_other, or_field, or_and, put_and, BitVec.zero_or, BitVec.or_zero, Cond.ofBits_bits, reg, bit,
      ofBool_beq_one] <;>
    rfl

theorem Laws.SelectsRow.ldrtImm (c : Cond) (up : Bool) (rn rd : Reg) (imm12 : BitVec 12) :
    Laws.SelectsRow.Statement (.ldrtImm c up rn rd imm12) := by
  refine ⟨c, rowLdrtImm, mem_armTransferRows (k := 2) rfl, ?_, ?_, ?_⟩ <;>
    simp (discharger := decide) only [Row.hits, rowLdrtImm, assemble, List.foldr, field_or, field_put_self,
      field_put_other, or_field, or_and, put_and, BitVec.zero_or, BitVec.or_zero, Cond.ofBits_bits, reg, bit,
      ofBool_beq_one] <;>
    rfl

theorem Laws.SelectsRow.ldrRegPre (c : Cond) (up w : Bool) (rn rd : Reg) (amount : BitVec 5) (ty : ShiftType) (rm : Reg) :
    Laws.SelectsRow.Statement (.ldrRegPre c up w rn rd amount ty rm) := by
  refine ⟨c, rowLdrRegPre, mem_armTransferRows (k := 3) rfl, ?_, ?_, ?_⟩ <;>
    simp (discharger := decide) only [Row.hits, rowLdrRegPre, assemble, List.foldr, field_or, field_put_self,
      field_put_other, or_field, or_and, put_and, BitVec.zero_or, BitVec.or_zero, Cond.ofBits_bits, reg, bit,
      ofBool_beq_one, shiftType, ShiftType.ofBits_bits] <;>
    rfl

theorem Laws.SelectsRow.ldrRegPost (c : Cond) (up : Bool) (rn rd : Reg) (amount : BitVec 5) (ty : ShiftType) (rm : Reg) :
    Laws.SelectsRow.Statement (.ldrRegPost c up rn rd amount ty rm) := by
  refine ⟨c, rowLdrRegPost, mem_armTransferRows (k := 4) rfl, ?_, ?_, ?_⟩ <;>
    simp (discharger := decide) only [Row.hits, rowLdrRegPost, assemble, List.foldr, field_or, field_put_self,
      field_put_other, or_field, or_and, put_and, BitVec.zero_or, BitVec.or_zero, Cond.ofBits_bits, reg, bit,
      ofBool_beq_one, shiftType, ShiftType.ofBits_bits] <;>
    rfl

theorem Laws.SelectsRow.ldrtReg (c : Cond) (up : Bool) (rn rd : Reg) (amount : BitVec 5) (ty : ShiftType) (rm : Reg) :
    Laws.SelectsRow.Statement (.ldrtReg c up rn rd amount ty rm) := by
  refine ⟨c, rowLdrtReg, mem_armTransferRows (k := 5) rfl, ?_, ?_, ?_⟩ <;>
    simp (discharger := decide) only [Row.hits, rowLdrtReg, assemble, List.foldr, field_or, field_put_self,
      field_put_other, or_field, or_and, put_and, BitVec.zero_or, BitVec.or_zero, Cond.ofBits_bits, reg, bit,
      ofBool_beq_one, shiftType, ShiftType.ofBits_bits] <;>
    rfl

theorem Laws.SelectsRow.strImmPre (c : Cond) (up w : Bool) (rn rd : Reg) (imm12 : BitVec 12) :
    Laws.SelectsRow.Statement (.strImmPre c up w rn rd imm12) := by
  refine ⟨c, rowStrImmPre, mem_armTransferRows (k := 6) rfl, ?_, ?_, ?_⟩ <;>
    simp (discharger := decide) only [Row.hits, rowStrImmPre, assemble, List.foldr, field_or, field_put_self,
      field_put_other, or_field, or_and, put_and, BitVec.zero_or, BitVec.or_zero, Cond.ofBits_bits, reg, bit,
      ofBool_beq_one] <;>
    rfl

theorem Laws.SelectsRow.strImmPost (c : Cond) (up : Bool) (rn rd : Reg) (imm12 : BitVec 12) :
    Laws.SelectsRow.Statement (.strImmPost c up rn rd imm12) := by
  refine ⟨c, rowStrImmPost, mem_armTransferRows (k := 7) rfl, ?_, ?_, ?_⟩ <;>
    simp (discharger := decide) only [Row.hits, rowStrImmPost, assemble, List.foldr, field_or, field_put_self,
      field_put_other, or_field, or_and, put_and, BitVec.zero_or, BitVec.or_zero, Cond.ofBits_bits, reg, bit,
      ofBool_beq_one] <;>
    rfl

theorem Laws.SelectsRow.strtImm (c : Cond) (up : Bool) (rn rd : Reg) (imm12 : BitVec 12) :
    Laws.SelectsRow.Statement (.strtImm c up rn rd imm12) := by
  refine ⟨c, rowStrtImm, mem_armTransferRows (k := 8) rfl, ?_, ?_, ?_⟩ <;>
    simp (discharger := decide) only [Row.hits, rowStrtImm, assemble, List.foldr, field_or, field_put_self,
      field_put_other, or_field, or_and, put_and, BitVec.zero_or, BitVec.or_zero, Cond.ofBits_bits, reg, bit,
      ofBool_beq_one] <;>
    rfl

theorem Laws.SelectsRow.strRegPre (c : Cond) (up w : Bool) (rn rd : Reg) (amount : BitVec 5) (ty : ShiftType) (rm : Reg) :
    Laws.SelectsRow.Statement (.strRegPre c up w rn rd amount ty rm) := by
  refine ⟨c, rowStrRegPre, mem_armTransferRows (k := 9) rfl, ?_, ?_, ?_⟩ <;>
    simp (discharger := decide) only [Row.hits, rowStrRegPre, assemble, List.foldr, field_or, field_put_self,
      field_put_other, or_field, or_and, put_and, BitVec.zero_or, BitVec.or_zero, Cond.ofBits_bits, reg, bit,
      ofBool_beq_one, shiftType, ShiftType.ofBits_bits] <;>
    rfl

theorem Laws.SelectsRow.strRegPost (c : Cond) (up : Bool) (rn rd : Reg) (amount : BitVec 5) (ty : ShiftType) (rm : Reg) :
    Laws.SelectsRow.Statement (.strRegPost c up rn rd amount ty rm) := by
  refine ⟨c, rowStrRegPost, mem_armTransferRows (k := 10) rfl, ?_, ?_, ?_⟩ <;>
    simp (discharger := decide) only [Row.hits, rowStrRegPost, assemble, List.foldr, field_or, field_put_self,
      field_put_other, or_field, or_and, put_and, BitVec.zero_or, BitVec.or_zero, Cond.ofBits_bits, reg, bit,
      ofBool_beq_one, shiftType, ShiftType.ofBits_bits] <;>
    rfl

theorem Laws.SelectsRow.strtReg (c : Cond) (up : Bool) (rn rd : Reg) (amount : BitVec 5) (ty : ShiftType) (rm : Reg) :
    Laws.SelectsRow.Statement (.strtReg c up rn rd amount ty rm) := by
  refine ⟨c, rowStrtReg, mem_armTransferRows (k := 11) rfl, ?_, ?_, ?_⟩ <;>
    simp (discharger := decide) only [Row.hits, rowStrtReg, assemble, List.foldr, field_or, field_put_self,
      field_put_other, or_field, or_and, put_and, BitVec.zero_or, BitVec.or_zero, Cond.ofBits_bits, reg, bit,
      ofBool_beq_one, shiftType, ShiftType.ofBits_bits] <;>
    rfl

theorem Laws.SelectsRow.ldrbImmPre (c : Cond) (up w : Bool) (rn rd : Reg) (imm12 : BitVec 12) :
    Laws.SelectsRow.Statement (.ldrbImmPre c up w rn rd imm12) := by
  refine ⟨c, rowLdrbImmPre, mem_armTransferRows (k := 12) rfl, ?_, ?_, ?_⟩ <;>
    simp (discharger := decide) only [Row.hits, rowLdrbImmPre, assemble, List.foldr, field_or, field_put_self,
      field_put_other, or_field, or_and, put_and, BitVec.zero_or, BitVec.or_zero, Cond.ofBits_bits, reg, bit,
      ofBool_beq_one] <;>
    rfl

theorem Laws.SelectsRow.ldrbImmPost (c : Cond) (up : Bool) (rn rd : Reg) (imm12 : BitVec 12) :
    Laws.SelectsRow.Statement (.ldrbImmPost c up rn rd imm12) := by
  refine ⟨c, rowLdrbImmPost, mem_armTransferRows (k := 13) rfl, ?_, ?_, ?_⟩ <;>
    simp (discharger := decide) only [Row.hits, rowLdrbImmPost, assemble, List.foldr, field_or, field_put_self,
      field_put_other, or_field, or_and, put_and, BitVec.zero_or, BitVec.or_zero, Cond.ofBits_bits, reg, bit,
      ofBool_beq_one] <;>
    rfl

theorem Laws.SelectsRow.ldrbtImm (c : Cond) (up : Bool) (rn rd : Reg) (imm12 : BitVec 12) :
    Laws.SelectsRow.Statement (.ldrbtImm c up rn rd imm12) := by
  refine ⟨c, rowLdrbtImm, mem_armTransferRows (k := 14) rfl, ?_, ?_, ?_⟩ <;>
    simp (discharger := decide) only [Row.hits, rowLdrbtImm, assemble, List.foldr, field_or, field_put_self,
      field_put_other, or_field, or_and, put_and, BitVec.zero_or, BitVec.or_zero, Cond.ofBits_bits, reg, bit,
      ofBool_beq_one] <;>
    rfl

theorem Laws.SelectsRow.ldrbRegPre (c : Cond) (up w : Bool) (rn rd : Reg) (amount : BitVec 5) (ty : ShiftType) (rm : Reg) :
    Laws.SelectsRow.Statement (.ldrbRegPre c up w rn rd amount ty rm) := by
  refine ⟨c, rowLdrbRegPre, mem_armTransferRows (k := 15) rfl, ?_, ?_, ?_⟩ <;>
    simp (discharger := decide) only [Row.hits, rowLdrbRegPre, assemble, List.foldr, field_or, field_put_self,
      field_put_other, or_field, or_and, put_and, BitVec.zero_or, BitVec.or_zero, Cond.ofBits_bits, reg, bit,
      ofBool_beq_one, shiftType, ShiftType.ofBits_bits] <;>
    rfl

theorem Laws.SelectsRow.ldrbRegPost (c : Cond) (up : Bool) (rn rd : Reg) (amount : BitVec 5) (ty : ShiftType) (rm : Reg) :
    Laws.SelectsRow.Statement (.ldrbRegPost c up rn rd amount ty rm) := by
  refine ⟨c, rowLdrbRegPost, mem_armTransferRows (k := 16) rfl, ?_, ?_, ?_⟩ <;>
    simp (discharger := decide) only [Row.hits, rowLdrbRegPost, assemble, List.foldr, field_or, field_put_self,
      field_put_other, or_field, or_and, put_and, BitVec.zero_or, BitVec.or_zero, Cond.ofBits_bits, reg, bit,
      ofBool_beq_one, shiftType, ShiftType.ofBits_bits] <;>
    rfl

theorem Laws.SelectsRow.ldrbtReg (c : Cond) (up : Bool) (rn rd : Reg) (amount : BitVec 5) (ty : ShiftType) (rm : Reg) :
    Laws.SelectsRow.Statement (.ldrbtReg c up rn rd amount ty rm) := by
  refine ⟨c, rowLdrbtReg, mem_armTransferRows (k := 17) rfl, ?_, ?_, ?_⟩ <;>
    simp (discharger := decide) only [Row.hits, rowLdrbtReg, assemble, List.foldr, field_or, field_put_self,
      field_put_other, or_field, or_and, put_and, BitVec.zero_or, BitVec.or_zero, Cond.ofBits_bits, reg, bit,
      ofBool_beq_one, shiftType, ShiftType.ofBits_bits] <;>
    rfl

theorem Laws.SelectsRow.strbImmPre (c : Cond) (up w : Bool) (rn rd : Reg) (imm12 : BitVec 12) :
    Laws.SelectsRow.Statement (.strbImmPre c up w rn rd imm12) := by
  refine ⟨c, rowStrbImmPre, mem_armTransferRows (k := 18) rfl, ?_, ?_, ?_⟩ <;>
    simp (discharger := decide) only [Row.hits, rowStrbImmPre, assemble, List.foldr, field_or, field_put_self,
      field_put_other, or_field, or_and, put_and, BitVec.zero_or, BitVec.or_zero, Cond.ofBits_bits, reg, bit,
      ofBool_beq_one] <;>
    rfl

theorem Laws.SelectsRow.strbImmPost (c : Cond) (up : Bool) (rn rd : Reg) (imm12 : BitVec 12) :
    Laws.SelectsRow.Statement (.strbImmPost c up rn rd imm12) := by
  refine ⟨c, rowStrbImmPost, mem_armTransferRows (k := 19) rfl, ?_, ?_, ?_⟩ <;>
    simp (discharger := decide) only [Row.hits, rowStrbImmPost, assemble, List.foldr, field_or, field_put_self,
      field_put_other, or_field, or_and, put_and, BitVec.zero_or, BitVec.or_zero, Cond.ofBits_bits, reg, bit,
      ofBool_beq_one] <;>
    rfl

theorem Laws.SelectsRow.strbtImm (c : Cond) (up : Bool) (rn rd : Reg) (imm12 : BitVec 12) :
    Laws.SelectsRow.Statement (.strbtImm c up rn rd imm12) := by
  refine ⟨c, rowStrbtImm, mem_armTransferRows (k := 20) rfl, ?_, ?_, ?_⟩ <;>
    simp (discharger := decide) only [Row.hits, rowStrbtImm, assemble, List.foldr, field_or, field_put_self,
      field_put_other, or_field, or_and, put_and, BitVec.zero_or, BitVec.or_zero, Cond.ofBits_bits, reg, bit,
      ofBool_beq_one] <;>
    rfl

theorem Laws.SelectsRow.strbRegPre (c : Cond) (up w : Bool) (rn rd : Reg) (amount : BitVec 5) (ty : ShiftType) (rm : Reg) :
    Laws.SelectsRow.Statement (.strbRegPre c up w rn rd amount ty rm) := by
  refine ⟨c, rowStrbRegPre, mem_armTransferRows (k := 21) rfl, ?_, ?_, ?_⟩ <;>
    simp (discharger := decide) only [Row.hits, rowStrbRegPre, assemble, List.foldr, field_or, field_put_self,
      field_put_other, or_field, or_and, put_and, BitVec.zero_or, BitVec.or_zero, Cond.ofBits_bits, reg, bit,
      ofBool_beq_one, shiftType, ShiftType.ofBits_bits] <;>
    rfl

theorem Laws.SelectsRow.strbRegPost (c : Cond) (up : Bool) (rn rd : Reg) (amount : BitVec 5) (ty : ShiftType) (rm : Reg) :
    Laws.SelectsRow.Statement (.strbRegPost c up rn rd amount ty rm) := by
  refine ⟨c, rowStrbRegPost, mem_armTransferRows (k := 22) rfl, ?_, ?_, ?_⟩ <;>
    simp (discharger := decide) only [Row.hits, rowStrbRegPost, assemble, List.foldr, field_or, field_put_self,
      field_put_other, or_field, or_and, put_and, BitVec.zero_or, BitVec.or_zero, Cond.ofBits_bits, reg, bit,
      ofBool_beq_one, shiftType, ShiftType.ofBits_bits] <;>
    rfl

theorem Laws.SelectsRow.strbtReg (c : Cond) (up : Bool) (rn rd : Reg) (amount : BitVec 5) (ty : ShiftType) (rm : Reg) :
    Laws.SelectsRow.Statement (.strbtReg c up rn rd amount ty rm) := by
  refine ⟨c, rowStrbtReg, mem_armTransferRows (k := 23) rfl, ?_, ?_, ?_⟩ <;>
    simp (discharger := decide) only [Row.hits, rowStrbtReg, assemble, List.foldr, field_or, field_put_self,
      field_put_other, or_field, or_and, put_and, BitVec.zero_or, BitVec.or_zero, Cond.ofBits_bits, reg, bit,
      ofBool_beq_one, shiftType, ShiftType.ofBits_bits] <;>
    rfl

theorem Laws.SelectsRow.strhReg (c : Cond) (p up w : Bool) (rn rd rm : Reg) :
    Laws.SelectsRow.Statement (.strhReg c p up w rn rd rm) := by
  refine ⟨c, rowStrhReg, mem_armTransferRows (k := 24) rfl, ?_, ?_, ?_⟩ <;>
    simp (discharger := decide) only [Row.hits, rowStrhReg, assemble, List.foldr, field_or, field_put_self,
      field_put_other, or_field, or_and, put_and, BitVec.zero_or, BitVec.or_zero, Cond.ofBits_bits, reg, bit,
      ofBool_beq_one] <;>
    rfl

theorem Laws.SelectsRow.strhImm (c : Cond) (p up w : Bool) (rn rd : Reg) (imm8 : BitVec 8) :
    Laws.SelectsRow.Statement (.strhImm c p up w rn rd imm8) := by
  refine ⟨c, rowStrhImm, mem_armTransferRows (k := 25) rfl, ?_, ?_, ?_⟩ <;>
    simp (discharger := decide) only [Row.hits, rowStrhImm, assemble, List.foldr, field_or, field_put_self,
      field_put_other, or_field, or_and, put_and, BitVec.zero_or, BitVec.or_zero, Cond.ofBits_bits, reg, bit,
      ofBool_beq_one, field_append_four] <;>
    rfl

theorem Laws.SelectsRow.ldrhReg (c : Cond) (p up w : Bool) (rn rd rm : Reg) :
    Laws.SelectsRow.Statement (.ldrhReg c p up w rn rd rm) := by
  refine ⟨c, rowLdrhReg, mem_armTransferRows (k := 26) rfl, ?_, ?_, ?_⟩ <;>
    simp (discharger := decide) only [Row.hits, rowLdrhReg, assemble, List.foldr, field_or, field_put_self,
      field_put_other, or_field, or_and, put_and, BitVec.zero_or, BitVec.or_zero, Cond.ofBits_bits, reg, bit,
      ofBool_beq_one] <;>
    rfl

theorem Laws.SelectsRow.ldrhImm (c : Cond) (p up w : Bool) (rn rd : Reg) (imm8 : BitVec 8) :
    Laws.SelectsRow.Statement (.ldrhImm c p up w rn rd imm8) := by
  refine ⟨c, rowLdrhImm, mem_armTransferRows (k := 27) rfl, ?_, ?_, ?_⟩ <;>
    simp (discharger := decide) only [Row.hits, rowLdrhImm, assemble, List.foldr, field_or, field_put_self,
      field_put_other, or_field, or_and, put_and, BitVec.zero_or, BitVec.or_zero, Cond.ofBits_bits, reg, bit,
      ofBool_beq_one, field_append_four] <;>
    rfl

theorem Laws.SelectsRow.ldrsbReg (c : Cond) (p up w : Bool) (rn rd rm : Reg) :
    Laws.SelectsRow.Statement (.ldrsbReg c p up w rn rd rm) := by
  refine ⟨c, rowLdrsbReg, mem_armTransferRows (k := 28) rfl, ?_, ?_, ?_⟩ <;>
    simp (discharger := decide) only [Row.hits, rowLdrsbReg, assemble, List.foldr, field_or, field_put_self,
      field_put_other, or_field, or_and, put_and, BitVec.zero_or, BitVec.or_zero, Cond.ofBits_bits, reg, bit,
      ofBool_beq_one] <;>
    rfl

theorem Laws.SelectsRow.ldrsbImm (c : Cond) (p up w : Bool) (rn rd : Reg) (imm8 : BitVec 8) :
    Laws.SelectsRow.Statement (.ldrsbImm c p up w rn rd imm8) := by
  refine ⟨c, rowLdrsbImm, mem_armTransferRows (k := 29) rfl, ?_, ?_, ?_⟩ <;>
    simp (discharger := decide) only [Row.hits, rowLdrsbImm, assemble, List.foldr, field_or, field_put_self,
      field_put_other, or_field, or_and, put_and, BitVec.zero_or, BitVec.or_zero, Cond.ofBits_bits, reg, bit,
      ofBool_beq_one, field_append_four] <;>
    rfl

theorem Laws.SelectsRow.ldrshReg (c : Cond) (p up w : Bool) (rn rd rm : Reg) :
    Laws.SelectsRow.Statement (.ldrshReg c p up w rn rd rm) := by
  refine ⟨c, rowLdrshReg, mem_armTransferRows (k := 30) rfl, ?_, ?_, ?_⟩ <;>
    simp (discharger := decide) only [Row.hits, rowLdrshReg, assemble, List.foldr, field_or, field_put_self,
      field_put_other, or_field, or_and, put_and, BitVec.zero_or, BitVec.or_zero, Cond.ofBits_bits, reg, bit,
      ofBool_beq_one] <;>
    rfl

theorem Laws.SelectsRow.ldrshImm (c : Cond) (p up w : Bool) (rn rd : Reg) (imm8 : BitVec 8) :
    Laws.SelectsRow.Statement (.ldrshImm c p up w rn rd imm8) := by
  refine ⟨c, rowLdrshImm, mem_armTransferRows (k := 31) rfl, ?_, ?_, ?_⟩ <;>
    simp (discharger := decide) only [Row.hits, rowLdrshImm, assemble, List.foldr, field_or, field_put_self,
      field_put_other, or_field, or_and, put_and, BitVec.zero_or, BitVec.or_zero, Cond.ofBits_bits, reg, bit,
      ofBool_beq_one, field_append_four] <;>
    rfl

theorem Laws.SelectsRow.swp (c : Cond) (rn rd rm : Reg) : Laws.SelectsRow.Statement (.swp c rn rd rm) := by
  refine ⟨c, rowSwp, mem_armTransferRows (k := 32) rfl, ?_, ?_, ?_⟩ <;>
    simp (discharger := decide) only [Row.hits, rowSwp, assemble, List.foldr, field_or, field_put_self,
      field_put_other, or_field, or_and, put_and, BitVec.zero_or, BitVec.or_zero, Cond.ofBits_bits, reg] <;>
    rfl

theorem Laws.SelectsRow.swpb (c : Cond) (rn rd rm : Reg) : Laws.SelectsRow.Statement (.swpb c rn rd rm) := by
  refine ⟨c, rowSwpb, mem_armTransferRows (k := 33) rfl, ?_, ?_, ?_⟩ <;>
    simp (discharger := decide) only [Row.hits, rowSwpb, assemble, List.foldr, field_or, field_put_self,
      field_put_other, or_field, or_and, put_and, BitVec.zero_or, BitVec.or_zero, Cond.ofBits_bits, reg] <;>
    rfl

theorem Laws.SelectsRow.ldm (c : Cond) (p up w : Bool) (rn : Reg) (list : BitVec 16) :
    Laws.SelectsRow.Statement (.ldm c p up w rn list) := by
  refine ⟨c, rowLdm, mem_armBlockRows (k := 0) rfl, ?_, ?_, ?_⟩ <;>
    simp (discharger := decide) only [Row.hits, rowLdm, assemble, List.foldr, field_or, field_put_self,
      field_put_other, or_field, or_and, put_and, BitVec.zero_or, BitVec.or_zero, Cond.ofBits_bits, reg, bit,
      ofBool_beq_one] <;>
    rfl

theorem Laws.SelectsRow.ldmUser (c : Cond) (p up w : Bool) (rn : Reg) (list : BitVec 15) :
    Laws.SelectsRow.Statement (.ldmUser c p up w rn list) := by
  refine ⟨c, rowLdmUser, mem_armBlockRows (k := 1) rfl, ?_, ?_, ?_⟩ <;>
    simp (discharger := decide) only [Row.hits, rowLdmUser, assemble, List.foldr, field_or, field_put_self,
      field_put_other, or_field, or_and, put_and, BitVec.zero_or, BitVec.or_zero, Cond.ofBits_bits, reg, bit,
      ofBool_beq_one] <;>
    rfl

theorem Laws.SelectsRow.ldmRestore (c : Cond) (p up w : Bool) (rn : Reg) (list : BitVec 15) :
    Laws.SelectsRow.Statement (.ldmRestore c p up w rn list) := by
  refine ⟨c, rowLdmRestore, mem_armBlockRows (k := 2) rfl, ?_, ?_, ?_⟩ <;>
    simp (discharger := decide) only [Row.hits, rowLdmRestore, assemble, List.foldr, field_or, field_put_self,
      field_put_other, or_field, or_and, put_and, BitVec.zero_or, BitVec.or_zero, Cond.ofBits_bits, reg, bit,
      ofBool_beq_one] <;>
    rfl

theorem Laws.SelectsRow.stm (c : Cond) (p up w : Bool) (rn : Reg) (list : BitVec 16) :
    Laws.SelectsRow.Statement (.stm c p up w rn list) := by
  refine ⟨c, rowStm, mem_armBlockRows (k := 3) rfl, ?_, ?_, ?_⟩ <;>
    simp (discharger := decide) only [Row.hits, rowStm, assemble, List.foldr, field_or, field_put_self,
      field_put_other, or_field, or_and, put_and, BitVec.zero_or, BitVec.or_zero, Cond.ofBits_bits, reg, bit,
      ofBool_beq_one] <;>
    rfl

theorem Laws.SelectsRow.stmUser (c : Cond) (p up w : Bool) (rn : Reg) (list : BitVec 16) :
    Laws.SelectsRow.Statement (.stmUser c p up w rn list) := by
  refine ⟨c, rowStmUser, mem_armBlockRows (k := 4) rfl, ?_, ?_, ?_⟩ <;>
    simp (discharger := decide) only [Row.hits, rowStmUser, assemble, List.foldr, field_or, field_put_self,
      field_put_other, or_field, or_and, put_and, BitVec.zero_or, BitVec.or_zero, Cond.ofBits_bits, reg, bit,
      ofBool_beq_one] <;>
    rfl

theorem Laws.SelectsRow.b (c : Cond) (offset24 : BitVec 24) : Laws.SelectsRow.Statement (.b c offset24) := by
  refine ⟨c, rowB, mem_armBranchRows (k := 0) rfl, ?_, ?_, ?_⟩ <;>
    simp (discharger := decide) only [Row.hits, rowB, assemble, List.foldr, field_or, field_put_self, field_put_other,
      or_field, or_and, put_and, BitVec.zero_or, BitVec.or_zero, Cond.ofBits_bits, reg] <;>
    rfl

theorem Laws.SelectsRow.bl (c : Cond) (offset24 : BitVec 24) : Laws.SelectsRow.Statement (.bl c offset24) := by
  refine ⟨c, rowBl, mem_armBranchRows (k := 1) rfl, ?_, ?_, ?_⟩ <;>
    simp (discharger := decide) only [Row.hits, rowBl, assemble, List.foldr, field_or, field_put_self,
      field_put_other, or_field, or_and, put_and, BitVec.zero_or, BitVec.or_zero, Cond.ofBits_bits, reg] <;>
    rfl

theorem Laws.SelectsRow.bx (c : Cond) (rn : Reg) : Laws.SelectsRow.Statement (.bx c rn) := by
  refine ⟨c, rowBx, mem_armBranchRows (k := 2) rfl, ?_, ?_, ?_⟩ <;>
    simp (discharger := decide) only [Row.hits, rowBx, assemble, List.foldr, field_or, field_put_self,
      field_put_other, or_field, or_and, put_and, BitVec.zero_or, BitVec.or_zero, Cond.ofBits_bits, reg] <;>
    rfl

theorem Laws.SelectsRow.blx (c : Cond) (rn : Reg) : Laws.SelectsRow.Statement (.blx c rn) := by
  refine ⟨c, rowBlx, mem_armBranchRows (k := 3) rfl, ?_, ?_, ?_⟩ <;>
    simp (discharger := decide) only [Row.hits, rowBlx, assemble, List.foldr, field_or, field_put_self,
      field_put_other, or_field, or_and, put_and, BitVec.zero_or, BitVec.or_zero, Cond.ofBits_bits, reg] <;>
    rfl

theorem Laws.SelectsRow.swi (c : Cond) (comment24 : BitVec 24) : Laws.SelectsRow.Statement (.swi c comment24) := by
  refine ⟨c, rowSwi, mem_armBranchRows (k := 4) rfl, ?_, ?_, ?_⟩ <;>
    simp (discharger := decide) only [Row.hits, rowSwi, assemble, List.foldr, field_or, field_put_self,
      field_put_other, or_field, or_and, put_and, BitVec.zero_or, BitVec.or_zero, Cond.ofBits_bits, reg] <;>
    rfl

theorem Laws.SelectsRow.undefinedPattern (c : Cond) : Laws.SelectsRow.Statement (.undefinedPattern c) := by
  refine ⟨c, rowUndefinedPattern, mem_armBranchRows (k := 5) rfl, ?_, ?_, ?_⟩ <;>
    simp (discharger := decide) only [Row.hits, rowUndefinedPattern, assemble, List.foldr, field_or, field_put_self,
      field_put_other, or_field, or_and, put_and, BitVec.zero_or, BitVec.or_zero, Cond.ofBits_bits, reg] <;>
    rfl

theorem Laws.SelectsRow.tLslImm (amount : BitVec 5) (rs rd : LowReg) :
    Laws.SelectsRow.Statement (.tLslImm amount rs rd) := by
  refine ⟨rowTLslImm, mem_thumbAluRows (k := 0) rfl, ?_, ?_⟩ <;>
    simp (discharger := decide) only [Row.hits, rowTLslImm, assemble, List.foldr, field_or, field_put_self,
      field_put_other, or_field, or_and, put_and, BitVec.zero_or, BitVec.or_zero, low] <;>
    rfl

theorem Laws.SelectsRow.tLsrImm (amount : BitVec 5) (rs rd : LowReg) :
    Laws.SelectsRow.Statement (.tLsrImm amount rs rd) := by
  refine ⟨rowTLsrImm, mem_thumbAluRows (k := 1) rfl, ?_, ?_⟩ <;>
    simp (discharger := decide) only [Row.hits, rowTLsrImm, assemble, List.foldr, field_or, field_put_self,
      field_put_other, or_field, or_and, put_and, BitVec.zero_or, BitVec.or_zero, low] <;>
    rfl

theorem Laws.SelectsRow.tAsrImm (amount : BitVec 5) (rs rd : LowReg) :
    Laws.SelectsRow.Statement (.tAsrImm amount rs rd) := by
  refine ⟨rowTAsrImm, mem_thumbAluRows (k := 2) rfl, ?_, ?_⟩ <;>
    simp (discharger := decide) only [Row.hits, rowTAsrImm, assemble, List.foldr, field_or, field_put_self,
      field_put_other, or_field, or_and, put_and, BitVec.zero_or, BitVec.or_zero, low] <;>
    rfl

theorem Laws.SelectsRow.tAddReg (rn rs rd : LowReg) : Laws.SelectsRow.Statement (.tAddReg rn rs rd) := by
  refine ⟨rowTAddReg, mem_thumbAluRows (k := 3) rfl, ?_, ?_⟩ <;>
    simp (discharger := decide) only [Row.hits, rowTAddReg, assemble, List.foldr, field_or, field_put_self,
      field_put_other, or_field, or_and, put_and, BitVec.zero_or, BitVec.or_zero, low] <;>
    rfl

theorem Laws.SelectsRow.tSubReg (rn rs rd : LowReg) : Laws.SelectsRow.Statement (.tSubReg rn rs rd) := by
  refine ⟨rowTSubReg, mem_thumbAluRows (k := 4) rfl, ?_, ?_⟩ <;>
    simp (discharger := decide) only [Row.hits, rowTSubReg, assemble, List.foldr, field_or, field_put_self,
      field_put_other, or_field, or_and, put_and, BitVec.zero_or, BitVec.or_zero, low] <;>
    rfl

theorem Laws.SelectsRow.tAddImm3 (imm3 : BitVec 3) (rs rd : LowReg) :
    Laws.SelectsRow.Statement (.tAddImm3 imm3 rs rd) := by
  refine ⟨rowTAddImm3, mem_thumbAluRows (k := 5) rfl, ?_, ?_⟩ <;>
    simp (discharger := decide) only [Row.hits, rowTAddImm3, assemble, List.foldr, field_or, field_put_self,
      field_put_other, or_field, or_and, put_and, BitVec.zero_or, BitVec.or_zero, low] <;>
    rfl

theorem Laws.SelectsRow.tSubImm3 (imm3 : BitVec 3) (rs rd : LowReg) :
    Laws.SelectsRow.Statement (.tSubImm3 imm3 rs rd) := by
  refine ⟨rowTSubImm3, mem_thumbAluRows (k := 6) rfl, ?_, ?_⟩ <;>
    simp (discharger := decide) only [Row.hits, rowTSubImm3, assemble, List.foldr, field_or, field_put_self,
      field_put_other, or_field, or_and, put_and, BitVec.zero_or, BitVec.or_zero, low] <;>
    rfl

theorem Laws.SelectsRow.tMovImm (rd : LowReg) (imm8 : BitVec 8) : Laws.SelectsRow.Statement (.tMovImm rd imm8) := by
  refine ⟨rowTMovImm, mem_thumbAluRows (k := 7) rfl, ?_, ?_⟩ <;>
    simp (discharger := decide) only [Row.hits, rowTMovImm, assemble, List.foldr, field_or, field_put_self,
      field_put_other, or_field, or_and, put_and, BitVec.zero_or, BitVec.or_zero, low] <;>
    rfl

theorem Laws.SelectsRow.tCmpImm (rd : LowReg) (imm8 : BitVec 8) : Laws.SelectsRow.Statement (.tCmpImm rd imm8) := by
  refine ⟨rowTCmpImm, mem_thumbAluRows (k := 8) rfl, ?_, ?_⟩ <;>
    simp (discharger := decide) only [Row.hits, rowTCmpImm, assemble, List.foldr, field_or, field_put_self,
      field_put_other, or_field, or_and, put_and, BitVec.zero_or, BitVec.or_zero, low] <;>
    rfl

theorem Laws.SelectsRow.tAddImm (rd : LowReg) (imm8 : BitVec 8) : Laws.SelectsRow.Statement (.tAddImm rd imm8) := by
  refine ⟨rowTAddImm, mem_thumbAluRows (k := 9) rfl, ?_, ?_⟩ <;>
    simp (discharger := decide) only [Row.hits, rowTAddImm, assemble, List.foldr, field_or, field_put_self,
      field_put_other, or_field, or_and, put_and, BitVec.zero_or, BitVec.or_zero, low] <;>
    rfl

theorem Laws.SelectsRow.tSubImm (rd : LowReg) (imm8 : BitVec 8) : Laws.SelectsRow.Statement (.tSubImm rd imm8) := by
  refine ⟨rowTSubImm, mem_thumbAluRows (k := 10) rfl, ?_, ?_⟩ <;>
    simp (discharger := decide) only [Row.hits, rowTSubImm, assemble, List.foldr, field_or, field_put_self,
      field_put_other, or_field, or_and, put_and, BitVec.zero_or, BitVec.or_zero, low] <;>
    rfl

theorem Laws.SelectsRow.tAnd (rs rd : LowReg) : Laws.SelectsRow.Statement (.tAnd rs rd) := by
  refine ⟨rowTAnd, mem_thumbAluRows (k := 11) rfl, ?_, ?_⟩ <;>
    simp (discharger := decide) only [Row.hits, rowTAnd, assemble, List.foldr, field_or, field_put_self,
      field_put_other, or_field, or_and, put_and, BitVec.zero_or, BitVec.or_zero, low] <;>
    rfl

theorem Laws.SelectsRow.tEor (rs rd : LowReg) : Laws.SelectsRow.Statement (.tEor rs rd) := by
  refine ⟨rowTEor, mem_thumbAluRows (k := 12) rfl, ?_, ?_⟩ <;>
    simp (discharger := decide) only [Row.hits, rowTEor, assemble, List.foldr, field_or, field_put_self,
      field_put_other, or_field, or_and, put_and, BitVec.zero_or, BitVec.or_zero, low] <;>
    rfl

theorem Laws.SelectsRow.tLslReg (rs rd : LowReg) : Laws.SelectsRow.Statement (.tLslReg rs rd) := by
  refine ⟨rowTLslReg, mem_thumbAluRows (k := 13) rfl, ?_, ?_⟩ <;>
    simp (discharger := decide) only [Row.hits, rowTLslReg, assemble, List.foldr, field_or, field_put_self,
      field_put_other, or_field, or_and, put_and, BitVec.zero_or, BitVec.or_zero, low] <;>
    rfl

theorem Laws.SelectsRow.tLsrReg (rs rd : LowReg) : Laws.SelectsRow.Statement (.tLsrReg rs rd) := by
  refine ⟨rowTLsrReg, mem_thumbAluRows (k := 14) rfl, ?_, ?_⟩ <;>
    simp (discharger := decide) only [Row.hits, rowTLsrReg, assemble, List.foldr, field_or, field_put_self,
      field_put_other, or_field, or_and, put_and, BitVec.zero_or, BitVec.or_zero, low] <;>
    rfl

theorem Laws.SelectsRow.tAsrReg (rs rd : LowReg) : Laws.SelectsRow.Statement (.tAsrReg rs rd) := by
  refine ⟨rowTAsrReg, mem_thumbAluRows (k := 15) rfl, ?_, ?_⟩ <;>
    simp (discharger := decide) only [Row.hits, rowTAsrReg, assemble, List.foldr, field_or, field_put_self,
      field_put_other, or_field, or_and, put_and, BitVec.zero_or, BitVec.or_zero, low] <;>
    rfl

theorem Laws.SelectsRow.tAdc (rs rd : LowReg) : Laws.SelectsRow.Statement (.tAdc rs rd) := by
  refine ⟨rowTAdc, mem_thumbAluRows (k := 16) rfl, ?_, ?_⟩ <;>
    simp (discharger := decide) only [Row.hits, rowTAdc, assemble, List.foldr, field_or, field_put_self,
      field_put_other, or_field, or_and, put_and, BitVec.zero_or, BitVec.or_zero, low] <;>
    rfl

theorem Laws.SelectsRow.tSbc (rs rd : LowReg) : Laws.SelectsRow.Statement (.tSbc rs rd) := by
  refine ⟨rowTSbc, mem_thumbAluRows (k := 17) rfl, ?_, ?_⟩ <;>
    simp (discharger := decide) only [Row.hits, rowTSbc, assemble, List.foldr, field_or, field_put_self,
      field_put_other, or_field, or_and, put_and, BitVec.zero_or, BitVec.or_zero, low] <;>
    rfl

theorem Laws.SelectsRow.tRorReg (rs rd : LowReg) : Laws.SelectsRow.Statement (.tRorReg rs rd) := by
  refine ⟨rowTRorReg, mem_thumbAluRows (k := 18) rfl, ?_, ?_⟩ <;>
    simp (discharger := decide) only [Row.hits, rowTRorReg, assemble, List.foldr, field_or, field_put_self,
      field_put_other, or_field, or_and, put_and, BitVec.zero_or, BitVec.or_zero, low] <;>
    rfl

theorem Laws.SelectsRow.tTst (rs rd : LowReg) : Laws.SelectsRow.Statement (.tTst rs rd) := by
  refine ⟨rowTTst, mem_thumbAluRows (k := 19) rfl, ?_, ?_⟩ <;>
    simp (discharger := decide) only [Row.hits, rowTTst, assemble, List.foldr, field_or, field_put_self,
      field_put_other, or_field, or_and, put_and, BitVec.zero_or, BitVec.or_zero, low] <;>
    rfl

theorem Laws.SelectsRow.tNeg (rs rd : LowReg) : Laws.SelectsRow.Statement (.tNeg rs rd) := by
  refine ⟨rowTNeg, mem_thumbAluRows (k := 20) rfl, ?_, ?_⟩ <;>
    simp (discharger := decide) only [Row.hits, rowTNeg, assemble, List.foldr, field_or, field_put_self,
      field_put_other, or_field, or_and, put_and, BitVec.zero_or, BitVec.or_zero, low] <;>
    rfl

theorem Laws.SelectsRow.tCmpReg (rs rd : LowReg) : Laws.SelectsRow.Statement (.tCmpReg rs rd) := by
  refine ⟨rowTCmpReg, mem_thumbAluRows (k := 21) rfl, ?_, ?_⟩ <;>
    simp (discharger := decide) only [Row.hits, rowTCmpReg, assemble, List.foldr, field_or, field_put_self,
      field_put_other, or_field, or_and, put_and, BitVec.zero_or, BitVec.or_zero, low] <;>
    rfl

theorem Laws.SelectsRow.tCmn (rs rd : LowReg) : Laws.SelectsRow.Statement (.tCmn rs rd) := by
  refine ⟨rowTCmn, mem_thumbAluRows (k := 22) rfl, ?_, ?_⟩ <;>
    simp (discharger := decide) only [Row.hits, rowTCmn, assemble, List.foldr, field_or, field_put_self,
      field_put_other, or_field, or_and, put_and, BitVec.zero_or, BitVec.or_zero, low] <;>
    rfl

theorem Laws.SelectsRow.tOrr (rs rd : LowReg) : Laws.SelectsRow.Statement (.tOrr rs rd) := by
  refine ⟨rowTOrr, mem_thumbAluRows (k := 23) rfl, ?_, ?_⟩ <;>
    simp (discharger := decide) only [Row.hits, rowTOrr, assemble, List.foldr, field_or, field_put_self,
      field_put_other, or_field, or_and, put_and, BitVec.zero_or, BitVec.or_zero, low] <;>
    rfl

theorem Laws.SelectsRow.tMul (rs rd : LowReg) : Laws.SelectsRow.Statement (.tMul rs rd) := by
  refine ⟨rowTMul, mem_thumbAluRows (k := 24) rfl, ?_, ?_⟩ <;>
    simp (discharger := decide) only [Row.hits, rowTMul, assemble, List.foldr, field_or, field_put_self,
      field_put_other, or_field, or_and, put_and, BitVec.zero_or, BitVec.or_zero, low] <;>
    rfl

theorem Laws.SelectsRow.tBic (rs rd : LowReg) : Laws.SelectsRow.Statement (.tBic rs rd) := by
  refine ⟨rowTBic, mem_thumbAluRows (k := 25) rfl, ?_, ?_⟩ <;>
    simp (discharger := decide) only [Row.hits, rowTBic, assemble, List.foldr, field_or, field_put_self,
      field_put_other, or_field, or_and, put_and, BitVec.zero_or, BitVec.or_zero, low] <;>
    rfl

theorem Laws.SelectsRow.tMvn (rs rd : LowReg) : Laws.SelectsRow.Statement (.tMvn rs rd) := by
  refine ⟨rowTMvn, mem_thumbAluRows (k := 26) rfl, ?_, ?_⟩ <;>
    simp (discharger := decide) only [Row.hits, rowTMvn, assemble, List.foldr, field_or, field_put_self,
      field_put_other, or_field, or_and, put_and, BitVec.zero_or, BitVec.or_zero, low] <;>
    rfl

theorem Laws.SelectsRow.tAddHi (rd rs : Reg) : Laws.SelectsRow.Statement (.tAddHi rd rs) := by
  refine ⟨rowTAddHi, mem_thumbAluRows (k := 27) rfl, ?_, ?_⟩ <;>
    simp (discharger := decide) only [Row.hits, rowTAddHi, assemble, List.foldr, field_or, field_put_self,
      field_put_other, or_field, or_and, put_and, BitVec.zero_or, BitVec.or_zero, hiReg, field_append_three] <;>
    rfl

theorem Laws.SelectsRow.tCmpHi (rd rs : Reg) : Laws.SelectsRow.Statement (.tCmpHi rd rs) := by
  refine ⟨rowTCmpHi, mem_thumbAluRows (k := 28) rfl, ?_, ?_⟩ <;>
    simp (discharger := decide) only [Row.hits, rowTCmpHi, assemble, List.foldr, field_or, field_put_self,
      field_put_other, or_field, or_and, put_and, BitVec.zero_or, BitVec.or_zero, hiReg, field_append_three] <;>
    rfl

theorem Laws.SelectsRow.tMovHi (rd rs : Reg) : Laws.SelectsRow.Statement (.tMovHi rd rs) := by
  refine ⟨rowTMovHi, mem_thumbAluRows (k := 29) rfl, ?_, ?_⟩ <;>
    simp (discharger := decide) only [Row.hits, rowTMovHi, assemble, List.foldr, field_or, field_put_self,
      field_put_other, or_field, or_and, put_and, BitVec.zero_or, BitVec.or_zero, hiReg, field_append_three] <;>
    rfl

theorem Laws.SelectsRow.tBx (rs : Reg) : Laws.SelectsRow.Statement (.tBx rs) := by
  refine ⟨rowTBx, mem_thumbAluRows (k := 30) rfl, ?_, ?_⟩ <;>
    simp (discharger := decide) only [Row.hits, rowTBx, assemble, List.foldr, field_or, field_put_self,
      field_put_other, or_field, or_and, put_and, BitVec.zero_or, BitVec.or_zero, hiReg, field_append_three] <;>
    rfl

theorem Laws.SelectsRow.tLdrPc (rd : LowReg) (word8 : BitVec 8) : Laws.SelectsRow.Statement (.tLdrPc rd word8) := by
  refine ⟨rowTLdrPc, mem_thumbTransferRows (k := 0) rfl, ?_, ?_⟩ <;>
    simp (discharger := decide) only [Row.hits, rowTLdrPc, assemble, List.foldr, field_or, field_put_self,
      field_put_other, or_field, or_and, put_and, BitVec.zero_or, BitVec.or_zero, low] <;>
    rfl

theorem Laws.SelectsRow.tStrReg (ro rb rd : LowReg) : Laws.SelectsRow.Statement (.tStrReg ro rb rd) := by
  refine ⟨rowTStrReg, mem_thumbTransferRows (k := 1) rfl, ?_, ?_⟩ <;>
    simp (discharger := decide) only [Row.hits, rowTStrReg, assemble, List.foldr, field_or, field_put_self,
      field_put_other, or_field, or_and, put_and, BitVec.zero_or, BitVec.or_zero, low] <;>
    rfl

theorem Laws.SelectsRow.tStrbReg (ro rb rd : LowReg) : Laws.SelectsRow.Statement (.tStrbReg ro rb rd) := by
  refine ⟨rowTStrbReg, mem_thumbTransferRows (k := 2) rfl, ?_, ?_⟩ <;>
    simp (discharger := decide) only [Row.hits, rowTStrbReg, assemble, List.foldr, field_or, field_put_self,
      field_put_other, or_field, or_and, put_and, BitVec.zero_or, BitVec.or_zero, low] <;>
    rfl

theorem Laws.SelectsRow.tLdrReg (ro rb rd : LowReg) : Laws.SelectsRow.Statement (.tLdrReg ro rb rd) := by
  refine ⟨rowTLdrReg, mem_thumbTransferRows (k := 3) rfl, ?_, ?_⟩ <;>
    simp (discharger := decide) only [Row.hits, rowTLdrReg, assemble, List.foldr, field_or, field_put_self,
      field_put_other, or_field, or_and, put_and, BitVec.zero_or, BitVec.or_zero, low] <;>
    rfl

theorem Laws.SelectsRow.tLdrbReg (ro rb rd : LowReg) : Laws.SelectsRow.Statement (.tLdrbReg ro rb rd) := by
  refine ⟨rowTLdrbReg, mem_thumbTransferRows (k := 4) rfl, ?_, ?_⟩ <;>
    simp (discharger := decide) only [Row.hits, rowTLdrbReg, assemble, List.foldr, field_or, field_put_self,
      field_put_other, or_field, or_and, put_and, BitVec.zero_or, BitVec.or_zero, low] <;>
    rfl

theorem Laws.SelectsRow.tStrhReg (ro rb rd : LowReg) : Laws.SelectsRow.Statement (.tStrhReg ro rb rd) := by
  refine ⟨rowTStrhReg, mem_thumbTransferRows (k := 5) rfl, ?_, ?_⟩ <;>
    simp (discharger := decide) only [Row.hits, rowTStrhReg, assemble, List.foldr, field_or, field_put_self,
      field_put_other, or_field, or_and, put_and, BitVec.zero_or, BitVec.or_zero, low] <;>
    rfl

theorem Laws.SelectsRow.tLdrhReg (ro rb rd : LowReg) : Laws.SelectsRow.Statement (.tLdrhReg ro rb rd) := by
  refine ⟨rowTLdrhReg, mem_thumbTransferRows (k := 6) rfl, ?_, ?_⟩ <;>
    simp (discharger := decide) only [Row.hits, rowTLdrhReg, assemble, List.foldr, field_or, field_put_self,
      field_put_other, or_field, or_and, put_and, BitVec.zero_or, BitVec.or_zero, low] <;>
    rfl

theorem Laws.SelectsRow.tLdsb (ro rb rd : LowReg) : Laws.SelectsRow.Statement (.tLdsb ro rb rd) := by
  refine ⟨rowTLdsb, mem_thumbTransferRows (k := 7) rfl, ?_, ?_⟩ <;>
    simp (discharger := decide) only [Row.hits, rowTLdsb, assemble, List.foldr, field_or, field_put_self,
      field_put_other, or_field, or_and, put_and, BitVec.zero_or, BitVec.or_zero, low] <;>
    rfl

theorem Laws.SelectsRow.tLdsh (ro rb rd : LowReg) : Laws.SelectsRow.Statement (.tLdsh ro rb rd) := by
  refine ⟨rowTLdsh, mem_thumbTransferRows (k := 8) rfl, ?_, ?_⟩ <;>
    simp (discharger := decide) only [Row.hits, rowTLdsh, assemble, List.foldr, field_or, field_put_self,
      field_put_other, or_field, or_and, put_and, BitVec.zero_or, BitVec.or_zero, low] <;>
    rfl

theorem Laws.SelectsRow.tStrImm (offset5 : BitVec 5) (rb rd : LowReg) :
    Laws.SelectsRow.Statement (.tStrImm offset5 rb rd) := by
  refine ⟨rowTStrImm, mem_thumbTransferRows (k := 9) rfl, ?_, ?_⟩ <;>
    simp (discharger := decide) only [Row.hits, rowTStrImm, assemble, List.foldr, field_or, field_put_self,
      field_put_other, or_field, or_and, put_and, BitVec.zero_or, BitVec.or_zero, low] <;>
    rfl

theorem Laws.SelectsRow.tLdrImm (offset5 : BitVec 5) (rb rd : LowReg) :
    Laws.SelectsRow.Statement (.tLdrImm offset5 rb rd) := by
  refine ⟨rowTLdrImm, mem_thumbTransferRows (k := 10) rfl, ?_, ?_⟩ <;>
    simp (discharger := decide) only [Row.hits, rowTLdrImm, assemble, List.foldr, field_or, field_put_self,
      field_put_other, or_field, or_and, put_and, BitVec.zero_or, BitVec.or_zero, low] <;>
    rfl

theorem Laws.SelectsRow.tStrbImm (offset5 : BitVec 5) (rb rd : LowReg) :
    Laws.SelectsRow.Statement (.tStrbImm offset5 rb rd) := by
  refine ⟨rowTStrbImm, mem_thumbTransferRows (k := 11) rfl, ?_, ?_⟩ <;>
    simp (discharger := decide) only [Row.hits, rowTStrbImm, assemble, List.foldr, field_or, field_put_self,
      field_put_other, or_field, or_and, put_and, BitVec.zero_or, BitVec.or_zero, low] <;>
    rfl

theorem Laws.SelectsRow.tLdrbImm (offset5 : BitVec 5) (rb rd : LowReg) :
    Laws.SelectsRow.Statement (.tLdrbImm offset5 rb rd) := by
  refine ⟨rowTLdrbImm, mem_thumbTransferRows (k := 12) rfl, ?_, ?_⟩ <;>
    simp (discharger := decide) only [Row.hits, rowTLdrbImm, assemble, List.foldr, field_or, field_put_self,
      field_put_other, or_field, or_and, put_and, BitVec.zero_or, BitVec.or_zero, low] <;>
    rfl

theorem Laws.SelectsRow.tStrhImm (offset5 : BitVec 5) (rb rd : LowReg) :
    Laws.SelectsRow.Statement (.tStrhImm offset5 rb rd) := by
  refine ⟨rowTStrhImm, mem_thumbTransferRows (k := 13) rfl, ?_, ?_⟩ <;>
    simp (discharger := decide) only [Row.hits, rowTStrhImm, assemble, List.foldr, field_or, field_put_self,
      field_put_other, or_field, or_and, put_and, BitVec.zero_or, BitVec.or_zero, low] <;>
    rfl

theorem Laws.SelectsRow.tLdrhImm (offset5 : BitVec 5) (rb rd : LowReg) :
    Laws.SelectsRow.Statement (.tLdrhImm offset5 rb rd) := by
  refine ⟨rowTLdrhImm, mem_thumbTransferRows (k := 14) rfl, ?_, ?_⟩ <;>
    simp (discharger := decide) only [Row.hits, rowTLdrhImm, assemble, List.foldr, field_or, field_put_self,
      field_put_other, or_field, or_and, put_and, BitVec.zero_or, BitVec.or_zero, low] <;>
    rfl

theorem Laws.SelectsRow.tStrSp (rd : LowReg) (word8 : BitVec 8) : Laws.SelectsRow.Statement (.tStrSp rd word8) := by
  refine ⟨rowTStrSp, mem_thumbTransferRows (k := 15) rfl, ?_, ?_⟩ <;>
    simp (discharger := decide) only [Row.hits, rowTStrSp, assemble, List.foldr, field_or, field_put_self,
      field_put_other, or_field, or_and, put_and, BitVec.zero_or, BitVec.or_zero, low] <;>
    rfl

theorem Laws.SelectsRow.tLdrSp (rd : LowReg) (word8 : BitVec 8) : Laws.SelectsRow.Statement (.tLdrSp rd word8) := by
  refine ⟨rowTLdrSp, mem_thumbTransferRows (k := 16) rfl, ?_, ?_⟩ <;>
    simp (discharger := decide) only [Row.hits, rowTLdrSp, assemble, List.foldr, field_or, field_put_self,
      field_put_other, or_field, or_and, put_and, BitVec.zero_or, BitVec.or_zero, low] <;>
    rfl

theorem Laws.SelectsRow.tAddPc (rd : LowReg) (word8 : BitVec 8) : Laws.SelectsRow.Statement (.tAddPc rd word8) := by
  refine ⟨rowTAddPc, mem_thumbAluRows (k := 31) rfl, ?_, ?_⟩ <;>
    simp (discharger := decide) only [Row.hits, rowTAddPc, assemble, List.foldr, field_or, field_put_self,
      field_put_other, or_field, or_and, put_and, BitVec.zero_or, BitVec.or_zero, low] <;>
    rfl

theorem Laws.SelectsRow.tAddSp (rd : LowReg) (word8 : BitVec 8) : Laws.SelectsRow.Statement (.tAddSp rd word8) := by
  refine ⟨rowTAddSp, mem_thumbAluRows (k := 32) rfl, ?_, ?_⟩ <;>
    simp (discharger := decide) only [Row.hits, rowTAddSp, assemble, List.foldr, field_or, field_put_self,
      field_put_other, or_field, or_and, put_and, BitVec.zero_or, BitVec.or_zero, low] <;>
    rfl

theorem Laws.SelectsRow.tSpAdd (sword7 : BitVec 7) : Laws.SelectsRow.Statement (.tSpAdd sword7) := by
  refine ⟨rowTSpAdd, mem_thumbAluRows (k := 33) rfl, ?_, ?_⟩ <;>
    simp (discharger := decide) only [Row.hits, rowTSpAdd, assemble, List.foldr, field_or, field_put_self,
      field_put_other, or_field, or_and, put_and, BitVec.zero_or, BitVec.or_zero] <;>
    rfl

theorem Laws.SelectsRow.tSpSub (sword7 : BitVec 7) : Laws.SelectsRow.Statement (.tSpSub sword7) := by
  refine ⟨rowTSpSub, mem_thumbAluRows (k := 34) rfl, ?_, ?_⟩ <;>
    simp (discharger := decide) only [Row.hits, rowTSpSub, assemble, List.foldr, field_or, field_put_self,
      field_put_other, or_field, or_and, put_and, BitVec.zero_or, BitVec.or_zero] <;>
    rfl

theorem Laws.SelectsRow.tPush (r : Bool) (rlist : BitVec 8) : Laws.SelectsRow.Statement (.tPush r rlist) := by
  refine ⟨rowTPush, mem_thumbTransferRows (k := 17) rfl, ?_, ?_⟩ <;>
    simp (discharger := decide) only [Row.hits, rowTPush, assemble, List.foldr, field_or, field_put_self,
      field_put_other, or_field, or_and, put_and, BitVec.zero_or, BitVec.or_zero, bit, ofBool_beq_one] <;>
    rfl

theorem Laws.SelectsRow.tPop (r : Bool) (rlist : BitVec 8) : Laws.SelectsRow.Statement (.tPop r rlist) := by
  refine ⟨rowTPop, mem_thumbTransferRows (k := 18) rfl, ?_, ?_⟩ <;>
    simp (discharger := decide) only [Row.hits, rowTPop, assemble, List.foldr, field_or, field_put_self,
      field_put_other, or_field, or_and, put_and, BitVec.zero_or, BitVec.or_zero, bit, ofBool_beq_one] <;>
    rfl

theorem Laws.SelectsRow.tStmia (rb : LowReg) (rlist : BitVec 8) : Laws.SelectsRow.Statement (.tStmia rb rlist) := by
  refine ⟨rowTStmia, mem_thumbTransferRows (k := 19) rfl, ?_, ?_⟩ <;>
    simp (discharger := decide) only [Row.hits, rowTStmia, assemble, List.foldr, field_or, field_put_self,
      field_put_other, or_field, or_and, put_and, BitVec.zero_or, BitVec.or_zero, low] <;>
    rfl

theorem Laws.SelectsRow.tLdmia (rb : LowReg) (rlist : BitVec 8) : Laws.SelectsRow.Statement (.tLdmia rb rlist) := by
  refine ⟨rowTLdmia, mem_thumbTransferRows (k := 20) rfl, ?_, ?_⟩ <;>
    simp (discharger := decide) only [Row.hits, rowTLdmia, assemble, List.foldr, field_or, field_put_self,
      field_put_other, or_field, or_and, put_and, BitVec.zero_or, BitVec.or_zero, low] <;>
    rfl

theorem Laws.SelectsRow.tBeq (soffset8 : BitVec 8) : Laws.SelectsRow.Statement (.tBeq soffset8) := by
  refine ⟨rowTBeq, mem_thumbBranchRows (k := 0) rfl, ?_, ?_⟩ <;>
    simp (discharger := decide) only [Row.hits, rowTBeq, assemble, List.foldr, field_or, field_put_self,
      field_put_other, or_field, or_and, put_and, BitVec.zero_or, BitVec.or_zero] <;>
    rfl

theorem Laws.SelectsRow.tBne (soffset8 : BitVec 8) : Laws.SelectsRow.Statement (.tBne soffset8) := by
  refine ⟨rowTBne, mem_thumbBranchRows (k := 1) rfl, ?_, ?_⟩ <;>
    simp (discharger := decide) only [Row.hits, rowTBne, assemble, List.foldr, field_or, field_put_self,
      field_put_other, or_field, or_and, put_and, BitVec.zero_or, BitVec.or_zero] <;>
    rfl

theorem Laws.SelectsRow.tBcs (soffset8 : BitVec 8) : Laws.SelectsRow.Statement (.tBcs soffset8) := by
  refine ⟨rowTBcs, mem_thumbBranchRows (k := 2) rfl, ?_, ?_⟩ <;>
    simp (discharger := decide) only [Row.hits, rowTBcs, assemble, List.foldr, field_or, field_put_self,
      field_put_other, or_field, or_and, put_and, BitVec.zero_or, BitVec.or_zero] <;>
    rfl

theorem Laws.SelectsRow.tBcc (soffset8 : BitVec 8) : Laws.SelectsRow.Statement (.tBcc soffset8) := by
  refine ⟨rowTBcc, mem_thumbBranchRows (k := 3) rfl, ?_, ?_⟩ <;>
    simp (discharger := decide) only [Row.hits, rowTBcc, assemble, List.foldr, field_or, field_put_self,
      field_put_other, or_field, or_and, put_and, BitVec.zero_or, BitVec.or_zero] <;>
    rfl

theorem Laws.SelectsRow.tBmi (soffset8 : BitVec 8) : Laws.SelectsRow.Statement (.tBmi soffset8) := by
  refine ⟨rowTBmi, mem_thumbBranchRows (k := 4) rfl, ?_, ?_⟩ <;>
    simp (discharger := decide) only [Row.hits, rowTBmi, assemble, List.foldr, field_or, field_put_self,
      field_put_other, or_field, or_and, put_and, BitVec.zero_or, BitVec.or_zero] <;>
    rfl

theorem Laws.SelectsRow.tBpl (soffset8 : BitVec 8) : Laws.SelectsRow.Statement (.tBpl soffset8) := by
  refine ⟨rowTBpl, mem_thumbBranchRows (k := 5) rfl, ?_, ?_⟩ <;>
    simp (discharger := decide) only [Row.hits, rowTBpl, assemble, List.foldr, field_or, field_put_self,
      field_put_other, or_field, or_and, put_and, BitVec.zero_or, BitVec.or_zero] <;>
    rfl

theorem Laws.SelectsRow.tBvs (soffset8 : BitVec 8) : Laws.SelectsRow.Statement (.tBvs soffset8) := by
  refine ⟨rowTBvs, mem_thumbBranchRows (k := 6) rfl, ?_, ?_⟩ <;>
    simp (discharger := decide) only [Row.hits, rowTBvs, assemble, List.foldr, field_or, field_put_self,
      field_put_other, or_field, or_and, put_and, BitVec.zero_or, BitVec.or_zero] <;>
    rfl

theorem Laws.SelectsRow.tBvc (soffset8 : BitVec 8) : Laws.SelectsRow.Statement (.tBvc soffset8) := by
  refine ⟨rowTBvc, mem_thumbBranchRows (k := 7) rfl, ?_, ?_⟩ <;>
    simp (discharger := decide) only [Row.hits, rowTBvc, assemble, List.foldr, field_or, field_put_self,
      field_put_other, or_field, or_and, put_and, BitVec.zero_or, BitVec.or_zero] <;>
    rfl

theorem Laws.SelectsRow.tBhi (soffset8 : BitVec 8) : Laws.SelectsRow.Statement (.tBhi soffset8) := by
  refine ⟨rowTBhi, mem_thumbBranchRows (k := 8) rfl, ?_, ?_⟩ <;>
    simp (discharger := decide) only [Row.hits, rowTBhi, assemble, List.foldr, field_or, field_put_self,
      field_put_other, or_field, or_and, put_and, BitVec.zero_or, BitVec.or_zero] <;>
    rfl

theorem Laws.SelectsRow.tBls (soffset8 : BitVec 8) : Laws.SelectsRow.Statement (.tBls soffset8) := by
  refine ⟨rowTBls, mem_thumbBranchRows (k := 9) rfl, ?_, ?_⟩ <;>
    simp (discharger := decide) only [Row.hits, rowTBls, assemble, List.foldr, field_or, field_put_self,
      field_put_other, or_field, or_and, put_and, BitVec.zero_or, BitVec.or_zero] <;>
    rfl

theorem Laws.SelectsRow.tBge (soffset8 : BitVec 8) : Laws.SelectsRow.Statement (.tBge soffset8) := by
  refine ⟨rowTBge, mem_thumbBranchRows (k := 10) rfl, ?_, ?_⟩ <;>
    simp (discharger := decide) only [Row.hits, rowTBge, assemble, List.foldr, field_or, field_put_self,
      field_put_other, or_field, or_and, put_and, BitVec.zero_or, BitVec.or_zero] <;>
    rfl

theorem Laws.SelectsRow.tBlt (soffset8 : BitVec 8) : Laws.SelectsRow.Statement (.tBlt soffset8) := by
  refine ⟨rowTBlt, mem_thumbBranchRows (k := 11) rfl, ?_, ?_⟩ <;>
    simp (discharger := decide) only [Row.hits, rowTBlt, assemble, List.foldr, field_or, field_put_self,
      field_put_other, or_field, or_and, put_and, BitVec.zero_or, BitVec.or_zero] <;>
    rfl

theorem Laws.SelectsRow.tBgt (soffset8 : BitVec 8) : Laws.SelectsRow.Statement (.tBgt soffset8) := by
  refine ⟨rowTBgt, mem_thumbBranchRows (k := 12) rfl, ?_, ?_⟩ <;>
    simp (discharger := decide) only [Row.hits, rowTBgt, assemble, List.foldr, field_or, field_put_self,
      field_put_other, or_field, or_and, put_and, BitVec.zero_or, BitVec.or_zero] <;>
    rfl

theorem Laws.SelectsRow.tBle (soffset8 : BitVec 8) : Laws.SelectsRow.Statement (.tBle soffset8) := by
  refine ⟨rowTBle, mem_thumbBranchRows (k := 13) rfl, ?_, ?_⟩ <;>
    simp (discharger := decide) only [Row.hits, rowTBle, assemble, List.foldr, field_or, field_put_self,
      field_put_other, or_field, or_and, put_and, BitVec.zero_or, BitVec.or_zero] <;>
    rfl

theorem Laws.SelectsRow.tSwi (value8 : BitVec 8) : Laws.SelectsRow.Statement (.tSwi value8) := by
  refine ⟨rowTSwi, mem_thumbBranchRows (k := 14) rfl, ?_, ?_⟩ <;>
    simp (discharger := decide) only [Row.hits, rowTSwi, assemble, List.foldr, field_or, field_put_self,
      field_put_other, or_field, or_and, put_and, BitVec.zero_or, BitVec.or_zero] <;>
    rfl

theorem Laws.SelectsRow.tB (offset11 : BitVec 11) : Laws.SelectsRow.Statement (.tB offset11) := by
  refine ⟨rowTB, mem_thumbBranchRows (k := 15) rfl, ?_, ?_⟩ <;>
    simp (discharger := decide) only [Row.hits, rowTB, assemble, List.foldr, field_or, field_put_self,
      field_put_other, or_field, or_and, put_and, BitVec.zero_or, BitVec.or_zero] <;>
    rfl

theorem Laws.SelectsRow.tBlHigh (offset11 : BitVec 11) : Laws.SelectsRow.Statement (.tBlHigh offset11) := by
  refine ⟨rowTBlHigh, mem_thumbBranchRows (k := 16) rfl, ?_, ?_⟩ <;>
    simp (discharger := decide) only [Row.hits, rowTBlHigh, assemble, List.foldr, field_or, field_put_self,
      field_put_other, or_field, or_and, put_and, BitVec.zero_or, BitVec.or_zero] <;>
    rfl

theorem Laws.SelectsRow.tBlLow (offset11 : BitVec 11) : Laws.SelectsRow.Statement (.tBlLow offset11) := by
  refine ⟨rowTBlLow, mem_thumbBranchRows (k := 17) rfl, ?_, ?_⟩ <;>
    simp (discharger := decide) only [Row.hits, rowTBlLow, assemble, List.foldr, field_or, field_put_self,
      field_put_other, or_field, or_and, put_and, BitVec.zero_or, BitVec.or_zero] <;>
    rfl

theorem Laws.SelectsRow.tBlxLow (offset11 : BitVec 11) : Laws.SelectsRow.Statement (.tBlxLow offset11) := by
  refine ⟨rowTBlxLow, mem_thumbBranchRows (k := 18) rfl, ?_, ?_⟩ <;>
    simp (discharger := decide) only [Row.hits, rowTBlxLow, assemble, List.foldr, field_or, field_put_self,
      field_put_other, or_field, or_and, put_and, BitVec.zero_or, BitVec.or_zero] <;>
    rfl

end Sys2Proof
end

