-- ==== Sys2Proof/Tests/Slice0.lean ====
section
/-! SUPPORT. The model's own tests: an ill-formed term per check; for every constructor a word written out from the formats of
spec/30_encoding.md (R98 to R121); single steps from the vectors of spec/95_test_vectors.md; and a witness for the
hypotheses of every statement that has some. -/

namespace Sys2Proof.Tests

set_option Elab.async false

open Sys2Proof.Machine Sys2Proof.Claims

/-! ## Ill-formed terms, one per check -/

theorem test_illFormed_multiply_pc : WellFormed (.mul .al false 15 0 2 1) = false := by decide

theorem test_illFormed_multiply_rd_rm : WellFormed (.mul .al false 1 0 2 1) = false := by decide

theorem test_illFormed_mla_addend_pc : WellFormed (.mla .al false 0 15 2 1) = false := by decide

theorem test_illFormed_long_same : WellFormed (.umull .al false 3 3 2 1) = false := by decide

theorem test_illFormed_long_lo_rm : WellFormed (.smlal .al false 4 1 2 1) = false := by decide

theorem test_illFormed_mrs_pc : WellFormed (.mrs .al false 15) = false := by decide

theorem test_illFormed_msr_pc : WellFormed (.msrReg .al false 9 15) = false := by decide

theorem test_illFormed_offset_pc : WellFormed (.ldrRegPre .al true false 1 0 0 .lsl 15) = false := by decide

theorem test_illFormed_writeback_pc : WellFormed (.strImmPre .al true true 15 0 4) = false := by decide

theorem test_illFormed_post_base_pc : WellFormed (.ldrbImmPost .al true 15 0 4) = false := by decide

theorem test_illFormed_half_load_pc : WellFormed (.ldrhImm .al true true false 1 15 2) = false := by decide

theorem test_illFormed_half_offset_pc : WellFormed (.strhReg .al true true false 1 0 15) = false := by decide

theorem test_illFormed_half_post_w : WellFormed (.ldrshImm .al false true true 1 0 2) = false := by decide

theorem test_illFormed_half_base_pc : WellFormed (.ldrsbImm .al false true false 15 0 2) = false := by decide

theorem test_illFormed_swap_pc : WellFormed (.swp .al 15 0 1) = false := by decide

theorem test_illFormed_empty_list : WellFormed (.stm .al false true true 0 0) = false := by decide

theorem test_illFormed_block_base_pc : WellFormed (.ldmRestore .al false true false 15 1) = false := by decide

theorem test_illFormed_user_writeback : WellFormed (.ldmUser .al false true true 0 2) = false := by decide

theorem test_illFormed_push_nothing : WellFormed (.tPush false 0) = false := by decide

theorem test_illFormed_ldmia_nothing : WellFormed (.tLdmia 0 0) = false := by decide

/-- r15 as a base without writeback is allowed (R259). -/
theorem test_wellFormed_half_load : WellFormed (.ldrhImm .al true true false 15 0 2) = true := by decide

theorem test_wellFormed_pop_pc : WellFormed (.tPop true 0) = true := by decide

/-! ## Decoding: every constructor -/

/-- Every word of the list decodes to the instruction beside it. -/
def reads (l : List (Word × Instr)) : Bool := l.all fun p => (decodeArm p.1).toOption == some p.2

/-- Every halfword of the list decodes to the instruction beside it. -/
def readsThumb (l : List (Half × Instr)) : Bool := l.all fun p => (decodeThumb p.1).toOption == some p.2

theorem test_decode_data1 : reads armData1Words = true := by decide +kernel

theorem test_decode_data2 : reads armData2Words = true := by decide +kernel

theorem test_decode_data3 : reads armData3Words = true := by decide +kernel

theorem test_decode_data4 : reads armData4Words = true := by decide +kernel

theorem test_decode_multiply : reads armMultiplyWords = true := by decide +kernel

theorem test_decode_psr : reads armPsrWords = true := by decide +kernel

theorem test_decode_transfer_word : reads armTransferWordWords = true := by decide +kernel

theorem test_decode_transfer_byte : reads armTransferByteWords = true := by decide +kernel

theorem test_decode_halfword_swap : reads armHalfwordSwapWords = true := by decide +kernel

theorem test_decode_block : reads armBlockWords = true := by decide +kernel

theorem test_decode_branch : reads armBranchWords = true := by decide +kernel

theorem test_decode_thumb1 : readsThumb thumb1Words = true := by decide +kernel

theorem test_decode_thumb4 : readsThumb thumb4Words = true := by decide +kernel

theorem test_decode_thumb6 : readsThumb thumb6Words = true := by decide +kernel

theorem test_decode_thumb12 : readsThumb thumb12Words = true := by decide +kernel

/-- Condition field 1111 is tested before every pattern (R97). -/
theorem test_decode_nv : decodeArm 0xF2511001#32 = .error .conditionNv := by decide +kernel

theorem test_decode_table_word :
    decodeTableWord 32 0xE2511001 = some (.subImm .al true 1 1 0 1) ∧ decodeTableWord 16 0x1E48 = some (.tSubImm3 1 1 0) := by decide +kernel

theorem test_encode :
    encode (.subImm .al true 1 1 0 1) = .arm 0xE2511001#32 ∧ encodeBytes (.tPush true 0x10) = [0x10, 0xB5] := by decide +kernel

/-! ## Single steps, from spec/95_test_vectors.md -/

/-- Initial state with one instruction placed at 0x08000000 and registers of the current view given. -/
def start (nbits w : Nat) (m : Mode) (fl : Flags) (regs : List (Reg × Word)) : State :=
  let s : State := { State.reset with cpsr := { State.reset.cpsr.withFlags fl with m := m } }
  (regs.foldl (fun s p => s.setX p.1 p.2) s).withFetchWord nbits w

/-- With a word of memory beside the instruction. -/
def State.word (s : State) (a v : Word) : State := { s with mem := s.mem.write32 a v }

/-- The flags by their letters. -/
def nzcv (n z c v : Bool) : Flags := ⟨n, z, c, v⟩

def none4 : Flags := nzcv false false false false

/-- The step answers a next state of which the test holds. -/
def after (s : State) (p : State → Bool) : Bool :=
  match step s with
  | .next t => p t
  | _ => false

/-- The step refuses for this reason. -/
def refuses (s : State) (r : Refusal) : Bool :=
  match step s with
  | .refused q => q == r
  | _ => false

/-- Vector S1: ADDS r0, r0, r0. -/
theorem test_adds_wraps : after (start 32 0xE0900000 .system none4 [(0, 0x80000000)])
    (fun t => t.x 0 == 0 && t.pc == 0x08000004 && t.cpsr.flags == nzcv false true true true) = true := by decide +kernel

/-- Vector S2: MOVS r1, r2, LSR #32. -/
theorem test_movs_lsr32 : after (start 32 0xE1B01022 .system none4 [(2, 0x80000001)])
    (fun t => t.x 1 == 0 && t.cpsr.flags == nzcv false true true false) = true := by decide +kernel

/-- Part 1.2, no. 1: MOVEQ r0, #5 with Z clear. -/
theorem test_moveq_skipped : after (start 32 0x03A00005 .system none4 [(0, 7)])
    (fun t => t.x 0 == 7 && t.pc == 0x08000004 && t.now.calls == [.fetch .word 0x08000004 .sequential]) = true := by decide +kernel

/-- Section 2.1: RRX. -/
theorem test_rrx : after (start 32 0xE1B00061 .system (nzcv false false true false) [(1, 1)])
    (fun t => t.x 0 == 0x80000000 && t.cpsr.flags == nzcv true false true false) = true := by decide +kernel

/-- Section 2.1: LSL by 33. -/
theorem test_lsl_33 : after (start 32 0xE1B00211 .system none4 [(1, 3), (2, 33)])
    (fun t => t.x 0 == 0 && t.cpsr.flags == nzcv false true false false) = true := by decide +kernel

/-- Section 2.1: ROR by 33. -/
theorem test_ror_33 : after (start 32 0xE1B00271 .system none4 [(1, 0x80000001), (2, 33)])
    (fun t => t.x 0 == 0xC0000000 && t.cpsr.flags == nzcv true false true false) = true := by decide +kernel

/-- Section 2.4: SUBS. -/
theorem test_subs_borrow : after (start 32 0xE0510002 .system none4 [(1, 5), (2, 7)])
    (fun t => t.x 0 == 0xFFFFFFFE && t.cpsr.flags == nzcv true false false false) = true := by decide +kernel

/-- Section 2.4: ADCS. -/
theorem test_adcs : after (start 32 0xE0B10002 .system (nzcv false false true false) [(1, 0xFFFFFFFF), (2, 0)])
    (fun t => t.x 0 == 0 && t.cpsr.flags == nzcv false true true false) = true := by decide +kernel

/-- Section 2.4: RSCS. -/
theorem test_rscs : after (start 32 0xE0F10002 .system (nzcv false false true false) [(1, 1), (2, 5)])
    (fun t => t.x 0 == 4 && t.cpsr.flags == nzcv false false true false) = true := by decide +kernel

/-- Section 2.4: SBCS. -/
theorem test_sbcs : after (start 32 0xE0D10002 .system none4 [(1, 0), (2, 0)])
    (fun t => t.x 0 == 0xFFFFFFFF && t.cpsr.flags == nzcv true false false false) = true := by decide +kernel

/-- Section 2.4: TST r1, #1 keeps C and V. -/
theorem test_tst_imm : after (start 32 0xE3110001 .system (nzcv false false true true) [(1, 2)])
    (fun t => t.x 1 == 2 && t.cpsr.flags == nzcv false true true true) = true := by decide +kernel

/-- Section 2.4: CMN. -/
theorem test_cmn : after (start 32 0xE1710002 .system none4 [(1, 1), (2, 0xFFFFFFFF)])
    (fun t => t.x 1 == 1 && t.cpsr.flags == nzcv false true true false) = true := by decide +kernel

/-- Section 2.4: ADD r0, pc, r1, LSL r2 reads ia + 12. -/
theorem test_add_pc_reg_shift : after (start 32 0xE08F0211 .system none4 [(1, 1), (2, 4)])
    (fun t => t.x 0 == 0x0800001C) = true := by decide +kernel

/-- Section 2.4: MOV pc, r1. -/
theorem test_mov_pc : after (start 32 0xE1A0F001 .system none4 [(1, 0x08000103)])
    (fun t => t.pc == 0x08000100 && !t.cpsr.t && t.now.branched) = true := by decide +kernel

/-- Section 2.5: MUL. -/
theorem test_mul : after (start 32 0xE0000291 .system (nzcv true true true true) [(1, 7), (2, 6)])
    (fun t => t.x 0 == 42 && t.cpsr.flags == nzcv true true true true) = true := by decide +kernel

/-- Section 2.5: MULS clears C and keeps V. -/
theorem test_muls_flags : after (start 32 0xE0100291 .system (nzcv false false true true) [(1, 0x00010000), (2, 0x00010000)])
    (fun t => t.x 0 == 0 && t.cpsr.flags == nzcv false true false true) = true := by decide +kernel

/-- Section 2.5: MLA. -/
theorem test_mla : after (start 32 0xE0203291 .system none4 [(1, 7), (2, 6), (3, 100)])
    (fun t => t.x 0 == 142) = true := by decide +kernel

/-- Vector S6: UMULL. -/
theorem test_umull : after (start 32 0xE0810392 .system none4 [(2, 0xFFFFFFFF), (3, 0xFFFFFFFF)])
    (fun t => t.x 0 == 1 && t.x 1 == 0xFFFFFFFE) = true := by decide +kernel

/-- Section 2.5: UMLAL. -/
theorem test_umlal_carry : after (start 32 0xE0A10392 .system none4 [(0, 0xFFFFFFFF), (1, 0), (2, 2), (3, 3)])
    (fun t => t.x 0 == 5 && t.x 1 == 1) = true := by decide +kernel

/-- Section 2.5: SMULLS. -/
theorem test_smulls : after (start 32 0xE0D10392 .system (nzcv false false true false) [(2, 0xFFFFFFFF), (3, 1)])
    (fun t => t.x 0 == 0xFFFFFFFF && t.x 1 == 0xFFFFFFFF && t.cpsr.flags == nzcv true false false false) = true := by decide +kernel

/-- Section 2.5: SMLALS. -/
theorem test_smlals : after (start 32 0xE0F10392 .system (nzcv false false true false) [(0, 1), (1, 0), (2, 0xFFFFFFFF), (3, 1)])
    (fun t => t.x 0 == 0 && t.x 1 == 0 && t.cpsr.flags == nzcv false true false false) = true := by decide +kernel

/-- Section 2.5: MUL with Rd = Rm. -/
theorem test_mul_rd_rm : refuses (start 32 0xE0000090 .system none4 []) .restrictedMultiply = true := by decide +kernel

/-- Section 2.6: MRS of the SPSR in SYSTEM mode reads the CPSR. -/
theorem test_mrs_spsr_system : after (start 32 0xE14F0000 .system (nzcv false true true false) [])
    (fun t => t.x 0 == 0x6000001F) = true := by decide +kernel

/-- Section 2.6: MSR CPSR_c into IRQ mode. -/
theorem test_msr_c_irq : after (start 32 0xE121F001 .system none4 [(1, 0x000000D2)])
    (fun t => t.cpsr.m == .irq && t.cpsr.i && t.cpsr.f && t.x 13 == 0x03007FA0) = true := by decide +kernel

/-- Section 2.6: MSR CPSR_fc in USER mode writes the flags only. -/
theorem test_msr_user : after (start 32 0xE129F000 .user none4 [(0, 0xF00000DF)])
    (fun t => t.cpsr == ⟨true, true, true, true, false, false, false, .user⟩) = true := by decide +kernel

/-- Section 2.6: MSR CPSR_c, #0. -/
theorem test_msr_bad_mode : refuses (start 32 0xE321F000 .system none4 []) .unrecognisedMode = true := by decide +kernel

/-- Section 2.6: MSR SPSR in SYSTEM mode. -/
theorem test_msr_spsr_system : refuses (start 32 0xE169F000 .system none4 []) .noSpsrToWrite = true := by decide +kernel

/-- Section 2.6: MSR SPSR_fc in SUPERVISOR mode. -/
theorem test_msr_spsr : after (start 32 0xE169F000 .supervisor none4 [(0, 0xF00000FF)])
    (fun t => t.spsrs.svc.toWord == 0xF00000FF && t.cpsr.m == .supervisor) = true := by decide +kernel

/-- Section 2.7: LDR at an unaligned address. -/
theorem test_ldr_rotated : after (State.word (State.word (start 32 0xE5910000 .system none4 [(1, 0x03000001)]) 0x03000000 0xDEADBEEF) 0x03000004 0x11223344)
    (fun t => t.x 0 == 0xEFDEADBE) = true := by decide +kernel

/-- Section 2.7: LDR r1, [r1], #4, the loaded value wins. -/
theorem test_ldr_base_loaded : after (State.word (State.word (start 32 0xE4911004 .system none4 [(1, 0x03000000)]) 0x03000000 0xDEADBEEF) 0x03000004 0x11223344)
    (fun t => t.x 1 == 0xDEADBEEF) = true := by decide +kernel

/-- Section 2.7: LDR r0, [r1, r2, LSL #2]. -/
theorem test_ldr_reg : after (State.word (State.word (start 32 0xE7910102 .system none4 [(1, 0x03000000), (2, 1)]) 0x03000000 0xDEADBEEF) 0x03000004 0x11223344)
    (fun t => t.x 0 == 0x11223344) = true := by decide +kernel

/-- Section 2.7: LDR pc, the low bits dropped. -/
theorem test_ldr_pc : after (State.word (start 32 0xE591F000 .system none4 [(1, 0x03000008)]) 0x03000008 0x08000107)
    (fun t => t.pc == 0x08000104 && !t.cpsr.t) = true := by decide +kernel

/-- Section 2.7: LDRT. -/
theorem test_ldrt : after (State.word (State.word (start 32 0xE4B10004 .system none4 [(1, 0x03000000)]) 0x03000000 0xDEADBEEF) 0x03000004 0x11223344)
    (fun t => t.x 0 == 0xDEADBEEF && t.x 1 == 0x03000004) = true := by decide +kernel

/-- Section 2.7: STR drops the low address bits and rotates nothing. -/
theorem test_str_aligns : after (start 32 0xE5812000 .system none4 [(1, 0x03000002), (2, 0xCAFEBABE)])
    (fun t => t.mem.read32 0x03000000 == 0xCAFEBABE) = true := by decide +kernel

/-- Section 2.7: STR pc. -/
theorem test_str_pc : after (start 32 0xE581F000 .system none4 [(1, 0x03000000)])
    (fun t => t.mem.read32 0x03000000 == 0x08000008) = true := by decide +kernel

/-- Section 2.7: STR r1, [r1, #4]! stores the old base. -/
theorem test_str_old_base : after (start 32 0xE5A11004 .system none4 [(1, 0x03000000)])
    (fun t => t.mem.read32 0x03000004 == 0x03000000 && t.x 1 == 0x03000004) = true := by decide +kernel

/-- Section 2.7: STRB. -/
theorem test_strb : after (State.word (start 32 0xE5C10003 .system none4 [(0, 0x00001234), (1, 0x03000000)]) 0x03000000 0xDEADBEEF)
    (fun t => t.mem.read32 0x03000000 == 0x34ADBEEF) = true := by decide +kernel

/-- Section 2.7: LDRB. -/
theorem test_ldrb : after (State.word (State.word (start 32 0xE5D13001 .system none4 [(1, 0x03000000)]) 0x03000000 0xDEADBEEF) 0x03000004 0x11223344)
    (fun t => t.x 3 == 0xBE) = true := by decide +kernel

/-- Section 2.7: STRH. -/
theorem test_strh_aligns : after (State.word (start 32 0xE1C100B0 .system none4 [(0, 0xABCD1234), (1, 0x03000001)]) 0x03000000 0xDEADBEEF)
    (fun t => t.mem.read32 0x03000000 == 0xDEAD1234) = true := by decide +kernel

/-- Section 2.7: LDRH at an odd address. -/
theorem test_ldrh_odd : after (State.word (State.word (start 32 0xE1D150B1 .system none4 [(1, 0x03000000)]) 0x03000000 0xDEADBEEF) 0x03000004 0x11223344)
    (fun t => t.x 5 == 0xEF0000BE) = true := by decide +kernel

/-- Section 2.7: LDRSB. -/
theorem test_ldrsb : after (State.word (State.word (start 32 0xE1D100D0 .system none4 [(1, 0x03000000)]) 0x03000000 0xDEADBEEF) 0x03000004 0x11223344)
    (fun t => t.x 0 == 0xFFFFFFEF) = true := by decide +kernel

/-- Section 2.7: LDRSH at an odd address reads a byte. -/
theorem test_ldrsh_odd : after (State.word (State.word (start 32 0xE1D100F0 .system none4 [(1, 0x03000001)]) 0x03000000 0xDEADBEEF) 0x03000004 0x11223344)
    (fun t => t.x 0 == 0xFFFFFFBE) = true := by decide +kernel

/-- Section 2.7: SWP. -/
theorem test_swp : after (State.word (State.word (start 32 0xE1020091 .system none4 [(1, 0x55), (2, 0x03000001)]) 0x03000000 0xDEADBEEF) 0x03000004 0x11223344)
    (fun t => t.x 0 == 0xEFDEADBE && t.mem.read32 0x03000000 == 0x55) = true := by decide +kernel

/-- Section 2.7: SWPB. -/
theorem test_swpb : after (State.word (State.word (start 32 0xE1420091 .system none4 [(1, 0x155), (2, 0x03000001)]) 0x03000000 0xDEADBEEF) 0x03000004 0x11223344)
    (fun t => t.x 0 == 0xBE && t.mem.read32 0x03000000 == 0xDEAD55EF) = true := by decide +kernel

/-- Vector S5: STMDB. -/
theorem test_stmdb : after (start 32 0xE92D4003 .system none4 [(13, 0x03007F00), (0, 1), (1, 2), (14, 3)])
    (fun t => t.mem.read32 0x03007EF4 == 1 && t.mem.read32 0x03007EF8 == 2 && t.mem.read32 0x03007EFC == 3 && t.x 13 == 0x03007EF4) = true := by decide +kernel

/-- Section 2.8: STMIA r1!, the base second in the list. -/
theorem test_stmia_base_second : after (start 32 0xE8A10003 .system none4 [(0, 5), (1, 0x03001000)])
    (fun t => t.mem.read32 0x03001004 == 0x03001008) = true := by decide +kernel

/-- Section 2.8: LDMIA r0!, the loaded value wins. -/
theorem test_ldmia_base_wins : after (State.word (State.word (start 32 0xE8B00003 .system none4 [(0, 0x03001000)]) 0x03001000 0x77) 0x03001004 0x88)
    (fun t => t.x 0 == 0x77 && t.x 1 == 0x88) = true := by decide +kernel

/-- Section 2.8: LDMIA sp! with pc. -/
theorem test_ldm_pc : after (State.word (State.word (State.word (start 32 0xE8BD8003 .system none4 [(13, 0x03007EF4)]) 0x03007EF4 1) 0x03007EF8 2) 0x03007EFC 0x08000101)
    (fun t => t.pc == 0x08000100 && t.x 13 == 0x03007F00 && t.x 1 == 2 && !t.cpsr.t) = true := by decide +kernel

/-- Section 2.8: LDM of the user bank in IRQ mode. -/
theorem test_ldm_user : after (State.word (State.word (start 32 0xE8D06000 .irq none4 [(0, 0x03000000), (13, 0x03007FA0)]) 0x03000000 0xAAAA) 0x03000004 0xBBBB)
    (fun t => t.getCell (.gen 13) == 0xAAAA && t.getCell (.gen 14) == 0xBBBB && t.x 13 == 0x03007FA0) = true := by decide +kernel

/-- Section 2.8: STM of the user bank in IRQ mode. -/
theorem test_stm_user : after (start 32 0xE8C06000 .irq none4 [(0, 0x03000000), (13, 0x03007FA0)])
    (fun t => t.mem.read32 0x03000000 == 0x03007F00) = true := by decide +kernel

/-- Section 2.8: an empty list. -/
theorem test_stm_empty : refuses (start 32 0xE8A00000 .system none4 []) .emptyRegisterList = true := by decide +kernel

/-- Section 2.9: B to itself. -/
theorem test_b_backward : after (start 32 0xEAFFFFFE .system none4 [])
    (fun t => t.pc == 0x08000000 && t.now.branched) = true := by decide +kernel

/-- Section 2.9: BL. -/
theorem test_bl : after (start 32 0xEB00003E .system none4 [])
    (fun t => t.pc == 0x08000100 && t.x 14 == 0x08000004) = true := by decide +kernel

/-- Vector S4: BX. -/
theorem test_bx_thumb : after (start 32 0xE12FFF10 .system none4 [(0, 0x08000001)])
    (fun t => t.pc == 0x08000000 && t.cpsr.t) = true := by decide +kernel

/-- Section 2.9: BLX. -/
theorem test_blx : after (start 32 0xE12FFF30 .system none4 [(0, 0x08000201)])
    (fun t => t.pc == 0x08000200 && t.cpsr.t && t.x 14 == 0x08000004) = true := by decide +kernel

/-- Section 2.9: SWI. -/
theorem test_swi : after (start 32 0xEF000000 .system (nzcv false true true false) [])
    (fun t => t.pc == 8 && t.spsrs.svc.toWord == 0x6000001F && t.x 14 == 0x08000004 && t.x 13 == 0x03007FE0 && t.cpsr.toSpsr.toWord == 0x60000093) = true := by decide +kernel

/-- Section 2.9: the undefined pattern under the default policy. -/
theorem test_undefined : after (start 32 0xE7F000F0 .system (nzcv false true true false) [])
    (fun t => t.pc == 4 && t.spsrs.und.toWord == 0x6000001F && t.x 14 == 0x08000004 && t.cpsr.toSpsr.toWord == 0x6000009B) = true := by decide +kernel

/-- Section 2.9: a word of the coprocessor space. -/
theorem test_coprocessor : after (start 32 0xEE000000 .system (nzcv false true true false) [])
    (fun t => t.pc == 4 && t.cpsr.m == .undefined) = true := by decide +kernel

/-- Section 2.9: condition field 1111. -/
theorem test_nv : refuses (start 32 0xF0000000 .system none4 []) .conditionNv = true := by decide +kernel

/-- Section 2.10: LSL r0, r1, #2. -/
theorem test_thumb_lsl : after (start 16 0x0088 .system none4 [(1, 0x40000001)])
    (fun t => t.x 0 == 4 && t.pc == 0x08000002 && t.cpsr.flags == nzcv false false true false) = true := by decide +kernel

/-- Section 2.10: SUB r0, r1, #1. -/
theorem test_thumb_sub3 : after (start 16 0x1E48 .system none4 [(1, 0x80000000)])
    (fun t => t.x 0 == 0x7FFFFFFF && t.cpsr.flags == nzcv false false true true) = true := by decide +kernel

/-- Section 2.10: MOV r0, #3 keeps C and V. -/
theorem test_thumb_mov : after (start 16 0x2003 .system (nzcv false false true true) [])
    (fun t => t.x 0 == 3 && t.cpsr.flags == nzcv false false true true) = true := by decide +kernel

/-- Section 2.10: ADD r1, #7. -/
theorem test_thumb_add_imm : after (start 16 0x3107 .system none4 [(1, 6)])
    (fun t => t.x 1 == 13 && t.cpsr.flags == none4) = true := by decide +kernel

/-- Section 2.10: AND. -/
theorem test_thumb_and : after (start 16 0x4008 .system none4 [(0, 0xF0), (1, 0x3C)])
    (fun t => t.x 0 == 0x30) = true := by decide +kernel

/-- Section 2.10: LSL by a register amount of 33. -/
theorem test_thumb_lsl_reg : after (start 16 0x4088 .system none4 [(0, 0x80000001), (1, 33)])
    (fun t => t.x 0 == 0 && t.cpsr.flags == nzcv false true false false) = true := by decide +kernel

/-- Rules R379 and R256: LDRH at an odd address. -/
theorem test_thumb_ldrh : after (State.word (State.word (start 16 0x5A88 .system none4 [(1, 0x03000000), (2, 1)]) 0x03000000 0xDEADBEEF) 0x03000004 0x11223344)
    (fun t => t.x 0 == 0xEF0000BE) = true := by decide +kernel

/-- Rules R381 and R258: LDSH at an odd address. -/
theorem test_thumb_ldsh : after (State.word (State.word (start 16 0x5E88 .system none4 [(1, 0x03000000), (2, 1)]) 0x03000000 0xDEADBEEF) 0x03000004 0x11223344)
    (fun t => t.x 0 == 0xFFFFFFBE) = true := by decide +kernel

/-- Rule R415: SWI from THUMB state. -/
theorem test_thumb_swi : after (start 16 0xDF00 .system none4 [])
    (fun t => t.pc == 8 && t.x 14 == 0x08000002 && !t.cpsr.t && t.spsrs.svc.t) = true := by decide +kernel

/-- Rule R420: BL, low half. -/
theorem test_thumb_bl_low : after (start 16 0xF802 .system none4 [(14, 0x08001000)])
    (fun t => t.pc == 0x08001004 && t.x 14 == 0x08000003) = true := by decide +kernel

/-! ## Witnesses: every statement with hypotheses has states and operands that meet them -/

/-- Reset, in another mode and instruction set, with the flags of R45. -/
def inMode (m : Mode) (thumb : Bool) : State :=
  { State.reset with cpsr := { State.reset.cpsr with m := m, t := thumb } }

/-- SUPERVISOR mode with a saved status that can be restored. -/
def restorable : State :=
  { inMode .supervisor false with
    spsrs := { State.reset.spsrs with svc := { Psr.zero with t := true, m := Mode.user.bits } } }

/-- Reset with a parameter policy. -/
def withCfg (s : State) (blx : Bool) (und : UndPolicy) (nv : CondNv) : State :=
  { s with cfg := { s.cfg with hasBlx := blx, undPolicy := und, condNv := nv } }

/-- The next step has an answer. -/
def goesOn (s : State) : Bool :=
  match step s with
  | .next _ => true
  | .fault _ => false
  | .refused _ => false

theorem step_of_goesOn {s : State} (h : goesOn s = true) : ∃ t, step s = .next t := by
  unfold goesOn at h
  cases hs : step s with
  | next t => exact ⟨t, rfl⟩
  | fault r => rw [hs] at h; simp at h
  | refused r => rw [hs] at h; simp at h

/-- The instruction has an answer in the same mode. -/
def completes (i : Instr) (s : State) : Bool :=
  match exec i s with
  | .next t => t.cpsr.m == s.cpsr.m
  | .fault _ => false
  | .refused _ => false

theorem exec_of_completes {i : Instr} {s : State} (h : completes i s = true) :
    ∃ t, exec i s = .next t ∧ t.cpsr.m = s.cpsr.m := by
  unfold completes at h
  cases hs : exec i s with
  | next t => rw [hs] at h; exact ⟨t, rfl, by simpa using h⟩
  | fault r => rw [hs] at h; simp at h
  | refused r => rw [hs] at h; simp at h

/-- Amounts at both ends of each clause, and a bit of the result. -/
theorem witness_ShifterTables :
    (32 ≠ 0 ∧ 32 % 32 = 0) ∧ (224 ≠ 0 ∧ 224 % 32 = 0) ∧ (1 % 32 ≠ 0 ∧ 31 % 32 ≠ 0 ∧ 33 % 32 ≠ 0 ∧ 255 % 32 ≠ 0) ∧
      (0 < 32 ∧ 31 < 32) := by decide

theorem witness_ShifterAmounts : (1#5 ≠ 0 ∧ 31#5 ≠ 0) ∧ (0 < 32 ∧ 31 < 32) := by decide

theorem witness_MemoryLayout :
    State.reset.mem.wf = true ∧ (State.word State.reset 0xFFFFFFFC 0xDEADBEEF).mem.wf = true := by decide +kernel

/-- The bytes of a store at the top of the address space, and the byte on either side of them. -/
theorem witness_StoredBytes :
    Stored .word 0xFFFFFFFE 0xFFFFFFFC ∧ Stored .word 0xFFFFFFFE 0xFFFFFFFF ∧ ¬Stored .word 0xFFFFFFFE 0 ∧
      ¬Stored .word 0xFFFFFFFE 0xFFFFFFFB ∧ Stored .byte 5 5 ∧ ¬Stored .byte 5 4 ∧ Stored .half 5 4 ∧ ¬Stored .half 5 6 := by
  unfold Stored; decide

theorem witness_InitialState :
    Cell.gen 2 ∉ [cell .user 0, cell .user 1, cell .user 13, cell .user 15, cell .supervisor 13, cell .irq 13] ∧
    Cell.und 1 ∉ [cell .user 0, cell .user 1, cell .user 13, cell .user 15, cell .supervisor 13, cell .irq 13] := by
  decide

/-- SUBS in ARM state, ADD in THUMB state, and a refused instruction. -/
theorem witness_StepRunsDecoded :
    (¬IrqDue (start 32 0xE2511001 .system none4 []) ∧
      decode (slotWord (start 32 0xE2511001 .system none4 [])) = .ok (.subImm .al true 1 1 0 1) ∧
      completes (.subImm .al true 1 1 0 1) (start 32 0xE2511001 .system none4 []) = true) ∧
    (¬IrqDue (start 16 0x3107 .system none4 []) ∧
      decode (slotWord (start 16 0x3107 .system none4 [])) = .ok (.tAddImm 1 7) ∧
      completes (.tAddImm 1 7) (start 16 0x3107 .system none4 []) = true) ∧
    (¬IrqDue (start 32 0xE8A00000 .system none4 []) ∧
      decode (slotWord (start 32 0xE8A00000 .system none4 [])) = .ok (.stm .al false true true 0 0) ∧
      refuses (start 32 0xE8A00000 .system none4 []) .emptyRegisterList = true) := by
  refine ⟨⟨fun h => absurd h.1 (by decide +kernel), ?_, ?_⟩, ⟨fun h => absurd h.1 (by decide +kernel), ?_, ?_⟩,
    ⟨fun h => absurd h.1 (by decide +kernel), ?_, ?_⟩⟩ <;> decide +kernel

theorem witness_StepRefillsSlot : ∃ s t, step s = .next t ∧ s.cpsr.t = false ∧ s.inv = true := by
  obtain ⟨t, h⟩ := step_of_goesOn (s := start 32 0xE12FFF10 .system none4 [(0, 0x08000001)]) (by decide +kernel)
  exact ⟨_, t, h, by decide +kernel, by decide +kernel⟩

theorem witness_StepKeepsInvariant : ∃ s t, s.inv = true ∧ step s = .next t := by
  obtain ⟨t, h⟩ := step_of_goesOn (s := start 32 0xE5812000 .system none4 [(1, 0x03000002), (2, 0xCAFEBABE)])
    (by decide +kernel)
  exact ⟨_, t, by decide +kernel, h⟩

theorem witness_InitialInvariant : Init.zero.mem.wf = true := rfl

/-- Reset with the VBlank line requested and enabled, in either instruction set. -/
theorem witness_IrqEntry :
    IrqDue { State.reset with irq := ⟨true, 1, 1⟩ } ∧ IrqDue { inMode .user true with irq := ⟨true, 0x2000, 0x2000⟩ } :=
  ⟨⟨rfl, by decide, rfl⟩, ⟨rfl, by decide, rfl⟩⟩

theorem witness_StepKeepsInputs : ∃ s t, step s = .next t ∧ s.irq.ie = 1 := by
  obtain ⟨t, h⟩ := step_of_goesOn (s := { State.reset with irq := ⟨true, 1, 1⟩ }) (by decide +kernel)
  exact ⟨_, t, h, rfl⟩

/-- CMPNE with Z set; the rest of the word is an unallocated one in the second. -/
theorem witness_FailedConditionSkips :
    (¬IrqDue (start 32 0x13500000 .system (nzcv false true false false) []) ∧
      (start 32 0x13500000 .system (nzcv false true false false) []).cpsr.t = false ∧
      Cond.ofBits ((start 32 0x13500000 .system (nzcv false true false false) []).slot.word.extractLsb' 28 4) = some .ne ∧
      ¬Passes .ne (start 32 0x13500000 .system (nzcv false true false false) [])) ∧
    (¬IrqDue (start 32 0x1E000000 .system (nzcv false true false false) []) ∧
      (start 32 0x1E000000 .system (nzcv false true false false) []).cpsr.t = false ∧
      Cond.ofBits ((start 32 0x1E000000 .system (nzcv false true false false) []).slot.word.extractLsb' 28 4) = some .ne ∧
      ¬Passes .ne (start 32 0x1E000000 .system (nzcv false true false false) [])) := by
  refine ⟨⟨fun h => absurd h.1 (by decide +kernel), ?_, ?_, ?_⟩, ⟨fun h => absurd h.1 (by decide +kernel), ?_, ?_, ?_⟩⟩ <;>
    (try unfold Passes) <;> decide +kernel

theorem witness_ConditionNvWord :
    (¬IrqDue (start 32 0xF0000000 .system none4 []) ∧ (start 32 0xF0000000 .system none4 []).cpsr.t = false ∧
      (start 32 0xF0000000 .system none4 []).slot.word.extractLsb' 28 4 = 0b1111 ∧
      (start 32 0xF0000000 .system none4 []).cfg.condNv = .refuse) ∧
    (¬IrqDue (withCfg (start 32 0xF0000000 .system none4 []) true .trap .never) ∧
      (withCfg (start 32 0xF0000000 .system none4 []) true .trap .never).cpsr.t = false ∧
      (withCfg (start 32 0xF0000000 .system none4 []) true .trap .never).slot.word.extractLsb' 28 4 = 0b1111 ∧
      (withCfg (start 32 0xF0000000 .system none4 []) true .trap .never).cfg.condNv = .never) := by
  refine ⟨⟨fun h => absurd h.1 (by decide +kernel), ?_, ?_, ?_⟩, ⟨fun h => absurd h.1 (by decide +kernel), ?_, ?_, ?_⟩⟩ <;>
    decide +kernel

/-- The undefined pattern, both BLX with the parameter off, and an unallocated word of each set. -/
theorem witness_UndefinedRoute :
    Passes .al State.reset ∧
    (Passes .al (withCfg State.reset false .nop .refuse) ∧ (withCfg State.reset false .nop .refuse).cfg.hasBlx = false) ∧
    (¬IrqDue (start 32 0xEE000000 .system none4 []) ∧
      decode (slotWord (start 32 0xEE000000 .system none4 [])) = .error (.unallocatedArm .al .x2) ∧
      Passes .al (start 32 0xEE000000 .system none4 [])) ∧
    (¬IrqDue (start 16 0xDE00 .system none4 []) ∧
      decode (slotWord (start 16 0xDE00 .system none4 [])) = .error .unallocatedThumb) := by
  refine ⟨rfl, ⟨rfl, rfl⟩, ⟨fun h => absurd h.1 (by decide +kernel), ?_, ?_⟩,
    ⟨fun h => absurd h.1 (by decide +kernel), ?_⟩⟩ <;> (try unfold Passes) <;> decide +kernel

theorem witness_SwiEntry :
    (State.reset.cpsr.t = false ∧ Passes .al State.reset) ∧ (inMode .user true).cpsr.t = true :=
  ⟨⟨rfl, rfl⟩, rfl⟩

/-- A USER-mode step that stays, one that leaves by SWI. -/
theorem witness_UserModeContained :
    (∃ s t, s.cpsr.m = .user ∧ step s = .next t) ∧
    ∃ s t, s.cpsr.m = .user ∧ step s = .next t ∧ decode (slotWord s) = .ok (.swi .al 0) := by
  obtain ⟨t, h⟩ := step_of_goesOn (s := start 32 0xE129F000 .user none4 [(0, 0xF00000DF)]) (by decide +kernel)
  obtain ⟨u, k⟩ := step_of_goesOn (s := start 32 0xEF000000 .user none4 []) (by decide +kernel)
  exact ⟨⟨_, t, by decide +kernel, h⟩, ⟨_, u, by decide +kernel, k, by decide +kernel⟩⟩

theorem witness_SpsrWrittenOnlyByOwnMode :
    (∃ s t, step s = .next t ∧ decode (slotWord s) = .ok (.msrReg .al true 9 0)) ∧
    ∃ s t, step s = .next t ∧ decode (slotWord s) = .ok (.swi .al 0) := by
  obtain ⟨t, h⟩ := step_of_goesOn (s := start 32 0xE169F000 .supervisor none4 [(0, 0xF00000FF)]) (by decide +kernel)
  obtain ⟨u, k⟩ := step_of_goesOn (s := start 32 0xEF000000 .system none4 []) (by decide +kernel)
  exact ⟨⟨_, t, h, by decide +kernel⟩, ⟨_, u, k, by decide +kernel⟩⟩

/-- r14_svc, seen from USER mode. -/
theorem witness_BanksIsolated : ∃ s t, step s = .next t ∧ s.cpsr.m = .user ∧
    (∀ i, Cell.svc 1 ≠ cell s.cpsr.m i) ∧ (∀ i, Cell.svc 1 ≠ .gen i) := by
  obtain ⟨t, h⟩ := step_of_goesOn (s := start 32 0xEF000000 .user none4 []) (by decide +kernel)
  have hm : (start 32 0xEF000000 .user none4 []).cpsr.m = .user := by decide +kernel
  exact ⟨_, t, h, hm, by rw [hm]; decide, by decide⟩

theorem witness_ArmDecodeEncode : ∃ w, encode (.ldmRestore .ne true false true 13 0x7FFF) = .arm w := ⟨_, rfl⟩

theorem witness_ThumbDecodeEncode : ∃ h, encode (.tBlxLow 0x7FE) = .thumb h := ⟨_, rfl⟩

/-- A word of each unallocated ARM space. -/
theorem witness_UnallocatedRejected :
    (Cond.ofBits (BitVec.extractLsb' 28 4 0xEC000000#32) = some .al ∧ InSpace .x1 0xEC000000) ∧
    (Cond.ofBits (BitVec.extractLsb' 28 4 0x0E000010#32) = some .eq ∧ InSpace .x2 0x0E000010) ∧
    (Cond.ofBits (BitVec.extractLsb' 28 4 0xE3000000#32) = some .al ∧ InSpace .x3 0xE3000000) ∧
    (Cond.ofBits (BitVec.extractLsb' 28 4 0xE12FFF20#32) = some .al ∧ InSpace .x4 0xE12FFF20) ∧
    (Cond.ofBits (BitVec.extractLsb' 28 4 0xE0400090#32) = some .al ∧ InSpace .x5 0xE0400090) ∧
    (Cond.ofBits (BitVec.extractLsb' 28 4 0xE00000D0#32) = some .al ∧ InSpace .x6 0xE00000D0) := by
  unfold InSpace; decide

/-- Both ends of each THUMB pattern, and the halfword on either side of it, which is allocated. -/
theorem witness_UnallocatedRejected_thumb :
    ([0xDE00, 0xDEFF, 0x4780, 0x47FF, 0xB100, 0xB3FF, 0xB600, 0xBBFF, 0xBE00, 0xBFFF].all fun h : Half =>
      decide (h.extractLsb' 8 8 = 0b11011110 ∨ h.extractLsb' 7 9 = 0b010001111 ∨
        (h.extractLsb' 12 4 = 0b1011 ∧ h.extractLsb' 8 4 ≠ 0b0000 ∧ h.extractLsb' 9 2 ≠ 0b10)) &&
      decide (decodeThumb h = .error .unallocatedThumb)) = true ∧
    ([0xDDFF, 0xDF00, 0x477F, 0x4800, 0xB0FF, 0xB400, 0xB5FF, 0xBC00, 0xBDFF, 0xC000].all fun h : Half =>
      (decodeThumb h).toOption.isSome) = true := by decide +kernel

theorem witness_IllFormedRefused :
    (Instr.defect? (.mul .al false 1 1 2 1) = some .restrictedMultiply ∧
      Instr.defect? (.mrs .al false 15) = some .forbiddenR15 ∧
      Instr.defect? (.ldrhImm .al false true true 1 0 2) = some .halfwordPostIndexedW ∧
      Instr.defect? (.tPush false 0) = some .emptyRegisterList ∧
      Instr.defect? (.ldmUser .al false true true 0 2) = some .userBankWriteback) ∧
    Passes (condition (.mul .al false 1 1 2 1)) State.reset ∧ Passes (condition (.mrs .al false 15)) State.reset ∧
    Passes (condition (.ldrhImm .al false true true 1 0 2)) State.reset ∧ Passes (condition (.tPush false 0)) State.reset ∧
    Passes (condition (.ldmUser .al false true true 0 2)) State.reset :=
  ⟨by decide, rfl, rfl, rfl, rfl, rfl⟩

theorem restorable_system : Restorable State.reset := fun _ h => by cases h

theorem restorable_supervisor : Restorable restorable := fun p h => by cases h; decide

theorem not_restorable : ¬Restorable (inMode .supervisor false) := fun h => absurd (h _ rfl) (by decide)

/-- A branch; MSR CPSR; MSR SPSR; MOVS pc; LDM with the SPSR. -/
theorem witness_WellFormedCompletes :
    (WellFormed (.b .al 0) = true ∧ StateAllows (.b .al 0) State.reset) ∧
    (WellFormed (.msrImm .al false 1 0 0x12) = true ∧ StateAllows (.msrImm .al false 1 0 0x12) State.reset) ∧
    (WellFormed (.msrReg .al true 9 0) = true ∧ StateAllows (.msrReg .al true 9 0) restorable) ∧
    (WellFormed (.movImm .al true 0 15 0 0) = true ∧ StateAllows (.movImm .al true 0 15 0 0) restorable) ∧
    (WellFormed (.ldmRestore .al false true true 13 1) = true ∧
      StateAllows (.ldmRestore .al false true true 13 1) restorable) := by
  have none5 : ∀ (i : Instr) (s : State), (∀ op c rn rd o, i ≠ dataInstr op c true rn rd o) →
      ∀ op c rn rd o, i = dataInstr op c true rn rd o → rd = 15 → Restorable s :=
    fun i s h op c rn rd o e => absurd e (h op c rn rd o)
  refine ⟨⟨by decide, ?_, ?_, ?_, none5 _ _ ?_⟩, ⟨by decide, ?_, ?_, ?_, none5 _ _ ?_⟩, ⟨by decide, ?_, ?_, ?_, none5 _ _ ?_⟩,
    ⟨by decide, ?_, ?_, ?_, fun _ _ _ _ _ _ _ => restorable_supervisor⟩, ⟨by decide, ?_, ?_, ?_, none5 _ _ ?_⟩⟩
  all_goals first
    | (intros; rename_i h; cases h <;> first | exact restorable_supervisor | (unfold MsrAllowed; decide))
    | (intro op c rn rd o h; cases op <;> cases o <;> cases h)

theorem witness_DataResult : DpOp.add.writes = true ∧ (14 : Reg) ≠ 15 ∧ Passes .eq State.reset := ⟨rfl, by decide, rfl⟩

theorem witness_DataTests : DpOp.teq.writes = false ∧ (0 : Reg) ≠ 15 ∧ Passes .al State.reset := ⟨rfl, by decide, rfl⟩

theorem witness_DataWritesPc : DpOp.mov.writes = true ∧ State.reset.cpsr.t = false ∧ Passes .al State.reset := ⟨rfl, rfl, rfl⟩

/-- A saved status that can be restored, none at all, and one that names no mode; both kinds of opcode. -/
theorem witness_DataReturns :
    (Passes .al restorable ∧ Restorable restorable) ∧ (Passes .al State.reset ∧ Restorable State.reset) ∧
    (Passes .al (inMode .supervisor false) ∧ ¬Restorable (inMode .supervisor false)) ∧
    DpOp.sub.writes = true ∧ DpOp.cmp.writes = false :=
  ⟨⟨rfl, restorable_supervisor⟩, ⟨rfl, restorable_system⟩, ⟨rfl, not_restorable⟩, rfl, rfl⟩

theorem witness_MultiplyShort : (0 : Reg) ≠ 15 ∧ (2 : Reg) ≠ 15 ∧ (1 : Reg) ≠ 15 ∧ (0 : Reg) ≠ 1 ∧
    Passes .al State.reset ∧ (3 : Reg) ≠ 15 := ⟨by decide, by decide, by decide, by decide, rfl, by decide⟩

theorem witness_MultiplyLong : (1 : Reg) ≠ 15 ∧ (0 : Reg) ≠ 15 ∧ (3 : Reg) ≠ 15 ∧ (2 : Reg) ≠ 15 ∧
    (1 : Reg) ≠ 0 ∧ (1 : Reg) ≠ 2 ∧ (0 : Reg) ≠ 2 ∧ Passes .al State.reset :=
  ⟨by decide, by decide, by decide, by decide, by decide, by decide, by decide, rfl⟩

/-- CPSR, SPSR of a mode that has one, SPSR in SYSTEM mode. -/
theorem witness_MrsReads : (0 : Reg) ≠ 15 ∧ Passes .al State.reset ∧ Passes .al restorable ∧
    ∃ p q r : Spsr, p = State.reset.cpsr.toSpsr ∧ q = (restorable.spsrs.get? restorable.cpsr.m).getD restorable.cpsr.toSpsr ∧
      r = (State.reset.spsrs.get? State.reset.cpsr.m).getD State.reset.cpsr.toSpsr :=
  ⟨by decide, rfl, rfl, _, _, _, rfl, rfl, rfl⟩

/-- Allowed in SYSTEM mode (with each of the two bytes), in USER mode, and not allowed. -/
theorem witness_MsrWritesCpsr : (0 : Reg) ≠ 15 ∧ Passes .al State.reset ∧ Passes .al (inMode .user false) ∧
    MsrAllowed State.reset false 9 (rotatedImm 0 0xD2) ∧ MsrAllowed State.reset false 8 (rotatedImm 0 0) ∧
    MsrAllowed State.reset false 9 (rotatedImm 0 0x10) ∧ MsrAllowed State.reset false 9 (rotatedImm 0 0x1F) ∧
    ¬MsrAllowed State.reset false 9 (rotatedImm 0 0x0F) ∧ ¬MsrAllowed State.reset false 9 (rotatedImm 0 0x14) ∧
    MsrAllowed (inMode .user false) false 9 (rotatedImm 0 0) ∧ ¬MsrAllowed State.reset false 9 (rotatedImm 0 0) := by
  refine ⟨by decide, rfl, rfl, ?_, ?_, ?_, ?_, ?_, ?_, ?_, ?_⟩ <;> unfold MsrAllowed <;> decide

theorem witness_MsrWritesSpsr : (0 : Reg) ≠ 15 ∧ Passes .al restorable ∧
    (∃ old, restorable.spsrs.get? restorable.cpsr.m = some old) ∧ (∃ m, m ≠ restorable.cpsr.m) ∧
    (State.reset.cpsr.m = .user ∨ State.reset.cpsr.m = .system) ∧ (inMode .user false).cpsr.m = .user :=
  ⟨by decide, rfl, ⟨_, rfl⟩, ⟨.irq, by decide⟩, .inr rfl, rfl⟩

theorem witness_MrsMsrRoundTrip : (14 : Reg) ≠ 15 ∧
    ∃ t t' : State, exec (.mrs .al false 14) State.reset = .next t ∧ t'.cpsr = t.cpsr ∧ t'.x 14 = t.x 14 := by
  obtain ⟨t, h, -⟩ := exec_of_completes (i := .mrs .al false 14) (s := State.reset) (by decide +kernel)
  exact ⟨by decide, t, t, h, rfl, rfl⟩

/-- Pre-indexed with r15 as base, and post-indexed with a base that is the destination too. -/
theorem witness_LoadsRegister : (0 : Reg) ≠ 15 ∧ (WordOffset.imm 4).offset.usesR15 = false ∧
    (WordOffset.reg 0 .lsl 14).offset.usesR15 = false ∧
    ¬((15 : Reg) = 15 ∧ (⟨true, true, false⟩ : Indexing).writesBack = true) ∧
    ¬((1 : Reg) = 15 ∧ (⟨false, true, false⟩ : Indexing).writesBack = true) ∧
    ((⟨false, true, false⟩ : Indexing).writesBack = true ∧ (1 : Reg) ≠ 0) ∧ Passes .al State.reset :=
  ⟨by decide, by decide, by decide, by decide, by decide, by decide, rfl⟩

theorem witness_LoadsPc : State.reset.cpsr.t = false ∧ (WordOffset.imm 4).offset.usesR15 = false ∧
    ¬((15 : Reg) = 15 ∧ (⟨true, true, false⟩ : Indexing).writesBack = true) ∧
    ¬((1 : Reg) = 15 ∧ (⟨true, false, true⟩ : Indexing).writesBack = true) ∧
    (⟨true, false, true⟩ : Indexing).writesBack = true ∧ Passes .al State.reset :=
  ⟨rfl, by decide, by decide, by decide, by decide, rfl⟩

theorem witness_LoadsHalfword : (0 : Reg) ≠ 15 ∧ (HalfOffset.imm 4).offset.usesR15 = false ∧
    (HalfOffset.reg 14).offset.usesR15 = false ∧
    ¬((15 : Reg) = 15 ∧ (⟨true, true, false⟩ : Indexing).writesBack = true) ∧
    ¬((1 : Reg) = 15 ∧ (⟨false, true, false⟩ : Indexing).writesBack = true) ∧
    ¬((⟨false, true, false⟩ : Indexing).pre = false ∧ (⟨false, true, false⟩ : Indexing).w = true) ∧
    Passes .al State.reset := ⟨by decide, by decide, by decide, by decide, by decide, by decide, rfl⟩

theorem witness_StoresRegister : State.reset.mem.wf = true ∧
    ¬((15 : Reg) = 15 ∧ (⟨true, true, false⟩ : Indexing).writesBack = true) ∧
    ¬((1 : Reg) = 15 ∧ (⟨false, false, true⟩ : Indexing).writesBack = true) ∧ Passes .al State.reset ∧
    (WordOffset.reg 31 .asr 14).offset.usesR15 = false ∧ (HalfOffset.imm 255).offset.usesR15 = false ∧
    ¬((⟨true, true, true⟩ : Indexing).pre = false ∧ (⟨true, true, true⟩ : Indexing).w = true) :=
  ⟨rfl, by decide, by decide, rfl, by decide, by decide, by decide⟩

theorem witness_SwapsMemory : State.reset.mem.wf = true ∧ (2 : Reg) ≠ 15 ∧ (0 : Reg) ≠ 15 ∧ (1 : Reg) ≠ 15 ∧
    Passes .al State.reset := ⟨rfl, by decide, by decide, by decide, rfl⟩

/-- LDMIA with r15 listed and a base that is not, POP of r15 alone, THUMB LDMIA. -/
theorem witness_BlockLoads :
    IsBlockLoad (.ldm .al false true true 13 0x8003) ⟨.al, false, true, true, 13, 0x8003⟩ ∧
    IsBlockLoad (.tPop true 0) ⟨.al, false, true, true, 13, popped true 0⟩ ∧
    IsBlockLoad (.tLdmia 2 0x80) ⟨.al, false, true, true, lowReg 2, BitVec.setWidth 16 0x80#8⟩ ∧
    0x8003#16 ≠ 0 ∧ popped true 0 ≠ 0 ∧ BitVec.setWidth 16 0x80#8 ≠ 0 ∧ (13 : Reg) ≠ 15 ∧ lowReg 2 ≠ 15 ∧
    Passes .al State.reset ∧ BitVec.getLsbD 0x8003#16 0 = true ∧ BitVec.getLsbD 0x8003#16 15 = true ∧
    BitVec.getLsbD 0x8003#16 13 = false :=
  ⟨.inl rfl, .inr (.inl ⟨_, _, rfl, rfl⟩), .inr (.inr ⟨_, _, rfl, rfl⟩), by decide, by decide, by decide, by decide,
    by decide, rfl, by decide, by decide, by decide⟩

theorem witness_BlockLoadsUser : 0x6000#15 ≠ 0 ∧ (0 : Reg) ≠ 15 ∧ Passes .al (inMode .irq false) ∧
    BitVec.getLsbD (0#1 ++ 0x6000#15) 13 = true := ⟨by decide, by decide, rfl, by decide⟩

/-- The list may be r15 alone. -/
theorem witness_BlockLoadsRestore : (13 : Reg) ≠ 15 ∧ (Passes .al restorable ∧ Restorable restorable) ∧
    (Passes .al (inMode .supervisor false) ∧ ¬Restorable (inMode .supervisor false)) ∧
    (BitVec.getLsbD (1#1 ++ 1#15) 0 = true ∧ BitVec.getLsbD (1#1 ++ 1#15) 13 = false) :=
  ⟨by decide, ⟨rfl, restorable_supervisor⟩, ⟨rfl, not_restorable⟩, by decide⟩

theorem witness_BlockStores :
    IsBlockStore (.stm .al true false true 13 0xC003) ⟨.al, true, false, true, 13, 0xC003⟩ ∧
    IsBlockStore (.tPush true 0) ⟨.al, true, false, true, 13, pushed true 0⟩ ∧
    IsBlockStore (.tStmia 2 0x81) ⟨.al, false, true, true, lowReg 2, BitVec.setWidth 16 0x81#8⟩ ∧
    0xC003#16 ≠ 0 ∧ pushed true 0 ≠ 0 ∧ BitVec.setWidth 16 0x81#8 ≠ 0 ∧ (13 : Reg) ≠ 15 ∧ lowReg 2 ≠ 15 ∧
    State.reset.mem.wf = true ∧ Passes .al State.reset :=
  ⟨.inl rfl, .inr (.inl ⟨_, _, rfl, rfl⟩), .inr (.inr ⟨_, _, rfl, rfl⟩), by decide, by decide, by decide, by decide,
    by decide, rfl, rfl⟩

theorem witness_BlockStoresUser : 0x8001#16 ≠ 0 ∧ (0 : Reg) ≠ 15 ∧ State.reset.mem.wf = true ∧
    Passes .al (inMode .irq false) := ⟨by decide, by decide, rfl, rfl⟩

theorem witness_StackRoundTrip : State.reset.mem.wf = true ∧
    ((13 : Reg) ≠ 15 ∧ 0x4003#16 ≠ 0 ∧ BitVec.getLsbD 0x4003#16 13 = false ∧ BitVec.getLsbD 0x4003#16 15 = false ∧
      ∃ t t' : State, exec (.stm .al true false true 13 0x4003) State.reset = .next t ∧ t'.mem = t.mem ∧
        t'.cpsr.m = State.reset.cpsr.m ∧ t'.x 13 = t.x 13) ∧
    (0x81#8 ≠ 0 ∧ ∃ t t' : State, exec (.tPush false 0x81) State.reset = .next t ∧ t'.mem = t.mem ∧
        t'.cpsr.m = State.reset.cpsr.m ∧ t'.x 13 = t.x 13) := by
  obtain ⟨t, h, hm⟩ := exec_of_completes (i := .stm .al true false true 13 0x4003) (s := State.reset) (by decide +kernel)
  obtain ⟨u, k, km⟩ := exec_of_completes (i := .tPush false 0x81) (s := State.reset) (by decide +kernel)
  exact ⟨rfl, ⟨by decide, by decide, by decide, by decide, t, t, h, rfl, hm, rfl⟩, ⟨by decide, u, u, k, rfl, km, rfl⟩⟩

theorem witness_ArmBranches : State.reset.cpsr.t = false ∧ Passes .al State.reset := ⟨rfl, rfl⟩

theorem witness_BranchExchange : Passes .al State.reset ∧ State.reset.cfg.hasBlx = true ∧ (15 : Reg) = 15 ∧ (0 : Reg) ≠ 15 :=
  ⟨rfl, rfl, rfl, by decide⟩

/-- Destination r15 in THUMB state, and another. -/
theorem witness_ThumbMovesAndAddresses : (8 : Reg) ≠ 15 ∧ ((15 : Reg) = 15 ∧ (inMode .system true).cpsr.t = true) :=
  ⟨by decide, rfl, rfl⟩

theorem witness_ThumbStores : State.reset.mem.wf = true := rfl

/-- THUMB state with the flags given. -/
def flagged (n z c v : Bool) : State :=
  { inMode .system true with cpsr := (inMode .system true).cpsr.withFlags (nzcv n z c v) }

/-- The tests of the fourteen conditions in the order of the statement, BEQ to BLE. -/
def branchTests (s : State) : List Bool :=
  let n := s.cpsr.n
  let z := s.cpsr.z
  let c := s.cpsr.c
  let v := s.cpsr.v
  [z, !z, c, !c, n, !n, v, !v, c && !z, !c || z, decide (n = v), decide (n ≠ v), !z && decide (n = v),
    z || decide (n ≠ v)]

/-- Each of the fourteen branches is taken in one of three THUMB states and untaken in another. -/
theorem witness_ThumbBranches :
    ((flagged true false true true).cpsr.t = true ∧ (flagged false true false true).cpsr.t = true ∧
      (flagged false true false false).cpsr.t = true) ∧
    branchTests (flagged true false true true) =
      [false, true, true, false, true, false, true, false, true, false, true, false, true, false] ∧
    branchTests (flagged false true false true) =
      [true, false, false, true, false, true, true, false, false, true, false, true, false, true] ∧
    branchTests (flagged false true false false) =
      [true, false, false, true, false, true, false, true, false, true, true, false, false, true] := by decide

theorem witness_ThumbBranchLink : (inMode .user true).cpsr.t = true ∧ (inMode .user true).cfg.hasBlx = true := ⟨rfl, rfl⟩


end Sys2Proof.Tests
end

section
/-! The registers and the initial state (spec/10_state.md): which views share a cell (R22 to R25) and what each cell holds
after initialisation (R45, R50). -/

namespace Sys2Proof.Machine

/-! ## Which views share a cell -/

/-- The architectural register that a cell is a copy of: the index under which every view that has the cell names it. -/
def Cell.register : Cell → Reg
  | .gen k => k
  | .fiq k => ⟨8 + k.val, by omega⟩
  | .svc k | .abt k | .irq k | .und k => ⟨13 + k.val, by omega⟩

@[simp] theorem cell_register (m : Mode) (i : Reg) : (cell m i).register = i := by
  cases m <;> revert i <;> decide

/-- Two views never share a cell under different indices. -/
theorem eq_of_cell_eq_cell {m m' : Mode} {i j : Reg} (h : cell m i = cell m' j) : i = j := by
  simpa using congrArg Cell.register h

/-- r0 to r7 and r15 have no banked copy (R23). -/
theorem cell_of_unbanked {i : Reg} (hi : i.val ≤ 7 ∨ i = 15) (m : Mode) : cell m i = .gen i :=
  if_pos (hi.imp_right (congrArg Fin.val))

theorem cell_fiq_eq_gen_iff {i j : Reg} : cell .fiq i = .gen j ↔ i = j ∧ (i.val ≤ 7 ∨ i = 15) := by
  revert i j; decide

theorem cell_fiq_bank (k : Fin 7) : cell .fiq ⟨8 + k.val, by omega⟩ = .fiq k := by
  revert k; decide

/-- r8 to r12 have two copies, the FIQ one and the general one. -/
theorem cell_eq_cell_iff_of_le_twelve {i : Reg} (low : ¬(i.val ≤ 7 ∨ i = 15)) (mid : i.val ≤ 12) (m m' : Mode) :
    cell m i = cell m' i ↔ (m = .fiq ↔ m' = .fiq) := by
  by_cases hm : m = .fiq <;> by_cases hm' : m' = .fiq
  · simp [hm, hm']
  · simp [hm, hm', cell_below_thirteen hm' mid, cell_fiq_eq_gen_iff, low]
  · simp [hm, hm', cell_below_thirteen hm mid, eq_comm (a := Cell.gen i), cell_fiq_eq_gen_iff, low]
  · simp [hm, hm', cell_below_thirteen hm mid, cell_below_thirteen hm' mid]

/-- r13 and r14 have one copy per mode, except that USER and SYSTEM share theirs. -/
theorem cell_eq_cell_iff_of_stack_or_link {i : Reg} (hi : i = 13 ∨ i = 14) (m m' : Mode) :
    cell m i = cell m' i ↔ m = m' ∨ (m = .user ∧ m' = .system) ∨ (m = .system ∧ m' = .user) := by
  rcases hi with rfl | rfl <;> cases m <;> cases m' <;> decide

/-- When two views of one index are the same cell, by the three kinds of index (R23). -/
theorem cell_eq_cell_iff (m m' : Mode) (i : Reg) : cell m i = cell m' i ↔
    i.val ≤ 7 ∨ i = 15 ∨ m = m' ∨ (m = .user ∧ m' = .system) ∨ (m = .system ∧ m' = .user) ∨
      (i.val ≤ 12 ∧ m ≠ .fiq ∧ m' ≠ .fiq) := by
  by_cases low : i.val ≤ 7 ∨ i = 15
  · rw [cell_of_unbanked low m, cell_of_unbanked low m']
    tauto
  by_cases mid : i.val ≤ 12
  · rw [cell_eq_cell_iff_of_le_twelve low mid]
    by_cases hm : m = .fiq
    · subst hm
      simp [not_or.mp low, eq_comm (a := Mode.fiq)]
    · by_cases hm' : m' = .fiq
      · subst hm'
        simp [not_or.mp low, hm]
      · simp [hm, hm', mid]
  · have high : i = 13 ∨ i = 14 := by revert i; decide
    rw [cell_eq_cell_iff_of_stack_or_link high]
    tauto

/-- Settles O7: a cell determines its architectural index, and for one index the three kinds (unbanked, banked in FIQ alone,
banked in every exception mode) say which modes share the copy. -/
theorem registerViews : Obligations.RegisterViews := by
  refine ⟨fun m m' i j => ⟨fun h => ?_, ?_⟩, cell_user, cell_fiq_bank, by decide, fun s m m' i j v => s.getCell_setCell _ _ v⟩
  · obtain rfl := eq_of_cell_eq_cell h
    exact ⟨rfl, (cell_eq_cell_iff m m' i).mp h⟩
  · rintro ⟨rfl, shared⟩
    exact (cell_eq_cell_iff m m' i).mpr shared

/-! ## The initial state -/

/-- What INIT supplies for every cell, before the six cells of R45 are written. -/
def Init.supplied (init : Init) : State := { State.initialise init with regs := init.regs }

theorem State.initialise_eq_setCell (init : Init) : State.initialise init =
    (((((init.supplied.setCell (.gen 15) entryPoint).setCell (.gen 0) 0x08000000#32).setCell (.gen 1) 0x000000EA#32).setCell
      (.gen 13) 0x03007F00#32).setCell (.svc 0) 0x03007FE0#32).setCell (.irq 0) 0x03007FA0#32 := rfl

/-- The contents of every cell after initialisation: the table of R45, and INIT's value elsewhere (R50). -/
theorem State.getCell_initialise (init : Init) (c : Cell) : (State.initialise init).getCell c =
    if c = .irq 0 then 0x03007FA0#32 else if c = .svc 0 then 0x03007FE0#32 else if c = .gen 13 then 0x03007F00#32
    else if c = .gen 1 then 0x000000EA#32 else if c = .gen 0 then 0x08000000#32 else if c = .gen 15 then entryPoint
    else init.regs.get c.idx := by
  simp only [State.initialise_eq_setCell, State.getCell_setCell]
  rfl

/-- A cell that R45 does not name holds what INIT supplies (R50). -/
theorem State.getCell_initialise_of_unspecified (init : Init) {c : Cell}
    (hc : c ∉ [cell .user 0, cell .user 1, cell .user 13, cell .user 15, cell .supervisor 13, cell .irq 13]) :
    (State.initialise init).getCell c = init.regs.get c.idx := by
  change c ∉ [Cell.gen 0, .gen 1, .gen 13, .gen 15, .svc 0, .irq 0] at hc
  simp only [List.mem_cons, List.not_mem_nil, or_false, not_or] at hc
  obtain ⟨h0, h1, h13, h15, hsvc, hirq⟩ := hc
  simp only [State.getCell_initialise, h0, h1, h13, h15, hsvc, hirq, if_false]

/-- Settles O9: the six cells of R45 by `State.getCell_initialise`, the others by
`State.getCell_initialise_of_unspecified`, and `Init.zero` is the INIT of reset. -/
theorem initialState : Obligations.InitialState := by
  refine ⟨fun init => ?_, Init.zero, rfl⟩
  have cells := State.getCell_initialise init
  exact ⟨rfl, cells (.gen 15), cells (.gen 0), cells (.gen 1), cells (.gen 13), cells (.svc 0), cells (.irq 0),
    fun _ => State.getCell_initialise_of_unspecified init, rfl, rfl, rfl, rfl, rfl⟩

end Sys2Proof.Machine
end

section
/-! The four adders (spec/40_flags_and_shifter.md R132 to R135) and the operands of data processing (R153, R161). -/

namespace Sys2Proof.Machine

open Sys2Proof.Claims

/-! ## The adders -/

theorem aluAdd_overflow_iff (a b : Word) :
    (aluAdd a b).overflow = true ↔ a.msb = b.msb ∧ (aluAdd a b).value.msb ≠ a.msb := by simp [aluAdd]

theorem aluSub_overflow_iff (a b : Word) :
    (aluSub a b).overflow = true ↔ a.msb ≠ b.msb ∧ (aluSub a b).value.msb ≠ a.msb := by simp [aluSub]

theorem aluAdc_overflow_iff (a b : Word) (cin : Bool) :
    (aluAdc a b cin).overflow = true ↔ a.msb = b.msb ∧ (aluAdc a b cin).value.msb ≠ a.msb := by simp [aluAdc]

theorem aluSbc_overflow_iff (a b : Word) (cin : Bool) :
    (aluSbc a b cin).overflow = true ↔ a.msb ≠ b.msb ∧ (aluSbc a b cin).value.msb ≠ a.msb := by simp [aluSbc]

/-- R133: the wrapped difference is the difference of the unsigned readings modulo `2 ^ 32`. -/
theorem aluSub_value (a b : Word) : (aluSub a b).value = BitVec.ofInt 32 (unsigned a - unsigned b) := by
  change a - b = BitVec.ofInt 32 ((a.toNat : Int) - b.toNat)
  apply BitVec.eq_of_toInt_eq
  rw [BitVec.toInt_sub, BitVec.toInt_ofInt, BitVec.toInt_eq_toNat_bmod a, BitVec.toInt_eq_toNat_bmod b, ← Int.sub_bmod]

theorem natCast_toNat_eq_bitValue (b : Bool) : (b.toNat : Int) = bitValue b := by cases b <;> rfl

/-- R135: the complement of `b` is `2 ^ 32 - 1 - b`, so the encoded sum is the difference with borrow, plus `2 ^ 32`. -/
theorem sum_not_eq_sub_borrow (a b : Word) (cin : Bool) :
    ((a.toNat + (~~~b).toNat + cin.toNat : Nat) : Int) = unsigned a - unsigned b - (1 - bitValue cin) + 2 ^ 32 := by
  have hnot : (~~~b).toNat = 2 ^ 32 - 1 - b.toNat := BitVec.toNat_not
  have hb := b.isLt
  have hcin := natCast_toNat_eq_bitValue cin
  unfold unsigned
  omega

theorem aluSbc_value (a b : Word) (cin : Bool) :
    (aluSbc a b cin).value = BitVec.ofInt 32 (unsigned a - unsigned b - (1 - bitValue cin)) := by
  change BitVec.ofNat 32 (a.toNat + (~~~b).toNat + cin.toNat) = _
  rw [← BitVec.ofInt_natCast, sum_not_eq_sub_borrow, BitVec.ofInt_add]
  exact BitVec.add_zero _

/-- Settles O1: the result of each adder by its own lemma, C as the comparison it decides, V by the sign rule. -/
theorem adderRules : Obligations.AdderRules := fun a b cin =>
  ⟨⟨BitVec.toNat_add a b, decide_eq_true_iff, aluAdd_overflow_iff a b⟩,
    ⟨aluSub_value a b, decide_eq_true_iff, aluSub_overflow_iff a b⟩,
    ⟨BitVec.toNat_ofNat _ _, decide_eq_true_iff, aluAdc_overflow_iff a b cin⟩,
    ⟨aluSbc_value a b cin, decide_eq_true_iff, aluSbc_overflow_iff a b cin⟩⟩

/-! ## The operands of data processing -/

/-- Settles O5: operand 2 and operand 1 are defined by the operand form, and `State.regA` and `State.regA12` are the two
readings of r15, so each clause is the equation of one form. -/
theorem dataOperands : Obligations.DataOperands := fun _ _ _ _ _ _ _ _ => ⟨rfl, rfl, rfl, rfl, rfl, rfl⟩

end Sys2Proof.Machine
end

section
/-! What a register write and a branch leave alone, as rules about `Frame`. -/

namespace Sys2Proof.Claims

open Sys2Proof.Machine

variable {s t : State} {written : List Cell} {calls : List BusCall} {branched : Bool}

theorem Frame.refl (s : State) : Frame s s [] [] false where
  cells _ _ := rfl
  spsrs := rfl
  slot := rfl
  irq := rfl
  cfg := rfl
  now := by simp

/-- A register write adds the one cell its index names in the current view. -/
theorem Frame.setX (h : Frame s t written calls branched) (i : Reg) (v : Word) :
    Frame s (t.setX i v) (cell t.mode i :: written) calls branched where
  cells c hc := by
    rw [State.getCell_setX, if_neg (List.ne_of_not_mem_cons hc), h.cells c (List.not_mem_of_not_mem_cons hc)]
  spsrs := h.spsrs
  slot := h.slot
  irq := h.irq
  cfg := h.cfg
  now := h.now

/-- A branch adds r15, and the mark of R437. -/
theorem Frame.branchTo (h : Frame s t written calls branched) (a : Word) :
    Frame s (t.branchTo a) (.gen 15 :: written) calls true where
  cells c hc := by
    rw [State.getCell_branchTo, if_neg (List.ne_of_not_mem_cons hc), h.cells c (List.not_mem_of_not_mem_cons hc)]
  spsrs := h.spsrs
  slot := h.slot
  irq := h.irq
  cfg := h.cfg
  now := by simp [h.now]

end Sys2Proof.Claims
end

section
/-! Branches in ARM state (spec/46_arm_branch_swi.md R300 to R302). -/

namespace Sys2Proof.Machine

open Sys2Proof.Claims

/-- A branch reaches no register but r15. -/
theorem State.x_branchTo (s : State) {i : Reg} (hi : i ≠ 15) (a : Word) : (s.branchTo a).x i = s.x i := by
  change (s.branchTo a).getCell (cell s.mode i) = s.getCell (cell s.mode i)
  rw [State.getCell_branchTo, if_neg (cell_ne_pc hi _)]

/-- In ARM state a branch goes to the word-aligned target (R14). -/
theorem State.pc_branchTo_arm {s : State} (hs : s.cpsr.t = false) (a : Word) : (s.branchTo a).pc = a &&& ~~~3#32 := by
  rw [State.pc_branchTo, hs]
  rfl

/-- R301: the sign-extended offset shifted left by two is four times the signed offset, modulo `2 ^ 32`. -/
theorem signExtend_shiftLeft_two (offset24 : BitVec 24) :
    offset24.signExtend 32 <<< 2 = BitVec.ofInt 32 (4 * offset24.toInt) := by
  rw [BitVec.shiftLeft_eq_mul_twoPow, BitVec.ofInt_mul, BitVec.mul_comm]
  rfl

/-- R301, R302: the target in integers; sums modulo `2 ^ 32` are those of the integers. -/
theorem State.armBranchTarget_eq_ofInt (s : State) (offset24 : BitVec 24) :
    s.armBranchTarget offset24 = BitVec.ofInt 32 (unsigned s.now.ia + 8 + 4 * offset24.toInt) := by
  have hia : BitVec.ofInt 32 (unsigned s.now.ia) = s.now.ia := by simp [unsigned]
  rw [State.armBranchTarget, signExtend_shiftLeft_two, BitVec.ofInt_add, BitVec.ofInt_add, hia]
  rfl

/-- Settles O52: B and BL both branch to `State.armBranchTarget`, in integers by `State.armBranchTarget_eq_ofInt`; BL writes
r14 first, and the branch leaves r14 alone. -/
theorem armBranches : Obligations.ArmBranches := by
  intro s c offset24 hs hc
  have htarget := s.armBranchTarget_eq_ofInt offset24
  constructor
  · refine ⟨s.branchTo _, State.ifCond_pass hc _, ?_, ⟨rfl, rfl, rfl, rfl⟩, ⟨rfl, rfl, rfl, rfl⟩,
      (Frame.refl s).branchTo _, fun _ => rfl⟩
    rw [State.pc_branchTo_arm hs, htarget]
  · refine ⟨(s.setX 14 _).branchTo _, State.ifCond_pass hc _, ?pc, ?link, ⟨rfl, rfl, rfl, rfl⟩, ⟨rfl, rfl, rfl, rfl⟩,
      ((Frame.refl s).setX 14 _).branchTo _, fun _ => rfl⟩
    case pc => rw [State.pc_branchTo_arm (s := s.setX 14 _) hs, htarget]
    case link => rw [State.x_branchTo _ (by decide), State.x_setX, if_pos rfl]

end Sys2Proof.Machine
end

section
/-! The execution loop (spec/49_execution_loop.md R432, R436): what the refill at the end of every step establishes, and the
step as the run of the decoded instruction. -/

namespace Sys2Proof.Machine

open Sys2Proof.Claims

/-- The slot of `u`, and its last bus call, are those of a fetch at r15 of the width CPSR.T selects, with `u`'s own r15,
CPSR, memory and branch mark (R436, R437). -/
structure SlotFresh (u : State) : Prop where
  addr : u.slot.addr = u.pc
  word : u.slot.word = if u.cpsr.t then (u.mem.read16 u.pc).setWidth 32 else u.mem.read32 u.pc
  lastCall : ∃ before, u.now.calls = before ++
    [.fetch (if u.cpsr.t then .half else .word) u.pc (if u.now.branched then .branch else .sequential)]

/-- The refill reads r15, CPSR, memory and the branch mark and writes none of them, so the slot fits the state after it. -/
theorem SlotFresh.of_refilled {t u : State} (h : Refilled t u) : SlotFresh u := by
  obtain ⟨haddr, hword, hcalls, hregs, hcpsr, -, hmem, -, -, -, hbranched⟩ := h
  have hpc : u.pc = t.pc := State.getCell_congr hregs _
  rw [← hpc] at haddr
  rw [← hpc, ← hcpsr, ← hmem] at hword
  rw [← hpc, ← hcpsr, ← hbranched] at hcalls
  exact ⟨haddr, hword, _, hcalls⟩

/-- Settles O11: whatever the step was, `step_next` says that a refill ends it. -/
theorem stepRefillsSlot : Obligations.StepRefillsSlot := by
  intro s t h
  obtain ⟨u, rfl, -⟩ := step_next h
  obtain ⟨haddr, hword, hlast⟩ := SlotFresh.of_refilled u.refilled_refill
  exact ⟨haddr, hword, hlast⟩

/-- Settles O10: by `step_of_decode_ok` the step is `finishStep` of the instruction run on the begun state, which refills
after a next state and hands a refusal on. -/
theorem stepRunsDecoded : Obligations.StepRunsDecoded := by
  intro s i hirq hdecode
  have hstep : step s = finishStep (exec i s.openStep.advance) := step_of_decode_ok hirq hdecode
  refine ⟨s.openStep.advance, s.begun_advance, fun t ht => ?next, fun r hr => ?refused⟩
  case next => exact ⟨t.refill, t.refilled_refill, by rw [hstep, ht]; rfl⟩
  case refused => rw [hstep, hr]; rfl

end Sys2Proof.Machine
end

section
/-! What every step keeps (spec/10_state.md R22 to R38, spec/49_execution_loop.md R441): the statements about all steps, from
what an instruction can do (`Effect`) and what taking an exception does (`Entered`). -/

namespace Sys2Proof.Machine

open Sys2Proof.Claims

/-- What a step did before its refill: the IRQ entry, or no more than the effect of one instruction. A word that is no
instruction does no more than a THUMB one could, so an ARM one is always the decoded one. -/
theorem step_effect {s t : State} (h : step s = .next t) : ∃ u : State, t = u.refill ∧
    (u = s.openStep.takeIrq ∨
      ∃ i, Effect i s.openStep.advance u ∧ (IsArm i → decode (slotWord s) = .ok i)) := by
  obtain ⟨u, rfl, ⟨-, hu⟩ | ⟨-, i, hd, hu⟩ | ⟨-, why, -, hu⟩⟩ := step_next h
  · exact ⟨u, rfl, .inl hu⟩
  · exact ⟨u, rfl, .inr ⟨i, exec_effect hu, fun _ => hd⟩⟩
  · refine ⟨u, rfl, .inr ⟨.tB 0, undecoded_effect hu, fun ⟨w, hw⟩ => ?_⟩⟩
    cases hw

/-- An instruction of the ARM set is decoded in ARM state only (R90). -/
theorem arm_state_of_decode {s : State} {i : Instr} (hd : decode (slotWord s) = .ok i) (hi : IsArm i) :
    s.cpsr.t = false := by
  cases ht : s.cpsr.t with
  | false => rfl
  | true =>
    have hthumb : decodeThumb (s.slot.word.setWidth 16) = .ok i := by
      simpa [slotWord, ht, decode] using hd
    obtain ⟨k, hk⟩ := decodeThumb_thumb hthumb
    obtain ⟨w, hw⟩ := hi
    rw [hk] at hw
    cases hw

/-! ## The invariant and the inputs -/

/-- After a refill the slot is at r15, so the invariant is alignment and canonical memory. -/
theorem State.inv_refill {u : State} (hpc : alignFor u.cpsr.t u.pc = u.pc) (hm : u.mem.wf = true) :
    u.refill.inv = true :=
  u.refill.inv_iff.2 ⟨hpc, rfl, hm⟩

/-- Settles O12: an exception vector is word-aligned, and an instruction keeps the alignment that the advance keeps
(`Effect.aligned`). -/
theorem stepKeepsInvariant : Obligations.StepKeepsInvariant := by
  intro s t hs h
  obtain ⟨hpc, -, hm⟩ := s.inv_iff.1 hs
  obtain ⟨u, rfl, rfl | ⟨i, he, hi⟩⟩ := step_effect h
  · refine State.inv_refill ?_ hm
    rw [State.pc, State.takeIrq, State.getCell_exceptionEntry, if_pos rfl]
    exact wordAddr_wordAddr _
  · refine State.inv_refill (he.aligned ?_ fun harm => arm_state_of_decode (hi harm) harm) (he.mem hm)
    rw [State.begun_advance s |>.pc]
    exact alignFor_advance _ hpc

/-- Settles O15: neither an exception entry nor any instruction writes the inputs (`Effect.irq`, `Effect.cfg`). -/
theorem stepKeepsInputs : Obligations.StepKeepsInputs := by
  intro s t h
  obtain ⟨u, rfl, rfl | ⟨i, he, -⟩⟩ := step_effect h
  · exact ⟨rfl, rfl⟩
  · exact ⟨he.irq, he.cfg⟩

/-! ## Modes and banks -/

/-- The three exceptions of this core and their vectors (R8). -/
def ExceptionVector (m : Mode) (vec : Word) : Prop :=
  (m = .irq ∧ vec = 0x00000018) ∨ (m = .supervisor ∧ vec = 0x00000008) ∨ (m = .undefined ∧ vec = 0x00000004)

theorem ExceptionVector.mem {m : Mode} {vec : Word} (h : ExceptionVector m vec) :
    vec ∈ [0x00000018#32, 0x00000008#32, 0x00000004#32] := by
  rcases h with ⟨-, rfl⟩ | ⟨-, rfl⟩ | ⟨-, rfl⟩ <;> decide

theorem ExceptionVector.entered {m : Mode} {vec : Word} (h : ExceptionVector m vec) (s : State) (ret : Word) :
    Entered s (s.exceptionEntry m ret vec) m ret vec := by
  rcases h with ⟨rfl, rfl⟩ | ⟨rfl, rfl⟩ | ⟨rfl, rfl⟩ <;> exact s.entered_exceptionEntry ret rfl (by decide)

/-- An entry sees neither r15 nor the step-local values of the state it is taken from. -/
theorem entered_congr {s b u : State} {m : Mode} {ret vec : Word} (hcells : ∀ c, c ≠ .gen 15 → b.getCell c = s.getCell c)
    (hrest : b.cpsr = s.cpsr ∧ b.spsrs = s.spsrs ∧ b.mem = s.mem ∧ b.irq = s.irq ∧ b.cfg = s.cfg)
    (h : Entered b u m ret vec) : Entered s u m ret vec := by
  obtain ⟨hcpsr, hspsrs, hmem, hirq, hcfg⟩ := hrest
  exact {
    flags := by simpa only [SameFlags, hcpsr] using h.flags
    control := hcpsr ▸ h.control
    saved := hcpsr ▸ h.saved
    otherSaved := hspsrs ▸ h.otherSaved
    link := h.link
    pc := h.pc
    cells := fun c hl hpc => (h.cells c hl hpc).trans (hcells c hpc)
    memory := h.memory.trans hmem
    inputs := ⟨h.inputs.1.trans hirq, h.inputs.2.trans hcfg⟩ }

/-- The IRQ entry, from the state at the top of the step (R452). -/
theorem entered_takeIrq (s : State) : Entered s s.openStep.takeIrq .irq (s.pc + 4) irqVector :=
  entered_congr (b := s.openStep) (fun _ _ => rfl) ⟨rfl, rfl, rfl, rfl, rfl⟩
    (s.openStep.entered_exceptionEntry _ rfl (by decide))

theorem entered_of_advance {s u : State} {m : Mode} {ret vec : Word} (h : Entered s.openStep.advance u m ret vec) :
    Entered s u m ret vec :=
  entered_congr s.begun_advance.cells ⟨rfl, rfl, rfl, rfl, rfl⟩ h

/-- What a step can do to modes, saved status and banks, before its refill. -/
inductive Stepped (s u : State) : Prop
  /-- It took an exception. -/
  | entry (m : Mode) (ret vec : Word) (vector : ExceptionVector m vec) (entered : Entered s u m ret vec)
  /-- It changed registers in reach and the CPSR, of which USER mode changes only flags and T. -/
  | plain (spsrs : u.spsrs = s.spsrs)
      (user : s.cpsr.m = .user → u.cpsr.m = .user ∧ u.cpsr.i = s.cpsr.i ∧ u.cpsr.f = s.cpsr.f)
      (cells : ∀ c, Outside s c → u.getCell c = s.getCell c)
  /-- It ran an MSR of the mode's SPSR. -/
  | msrSpsr (v : Spsr) (cpsr : u.cpsr = s.cpsr) (spsrs : u.spsrs = s.spsrs.put s.cpsr.m v)
      (cells : ∀ c, Outside s c → u.getCell c = s.getCell c)
      (isMsr : (∃ c mask rm, decode (slotWord s) = .ok (.msrReg c true mask rm)) ∨
        ∃ c mask rot imm8, decode (slotWord s) = .ok (.msrImm c true mask rot imm8))

theorem Outside.getCell_advance {s : State} {c : Cell} (hc : Outside s c) :
    s.openStep.advance.getCell c = s.getCell c :=
  s.begun_advance.cells c (hc.2 15)

theorem step_stepped {s t : State} (h : step s = .next t) : ∃ u : State, t = u.refill ∧ Stepped s u := by
  obtain ⟨u, rfl, rfl | ⟨i, he, hi⟩⟩ := step_effect h
  · exact ⟨_, rfl, .entry .irq _ irqVector (.inl ⟨rfl, rfl⟩) (entered_takeIrq s)⟩
  · refine ⟨u, rfl, ?_⟩
    cases he.change with
    | plain hspsrs huser hcells =>
      exact .plain hspsrs huser fun c hc => (hcells c hc).trans hc.getCell_advance
    | entry m ret vec hu hvec =>
      have hv : ExceptionVector m vec := .inr hvec
      exact .entry m ret vec hv (hu ▸ entered_of_advance (hv.entered _ ret))
    | msrSpsr v hu hmsr =>
      subst hu
      refine .msrSpsr v rfl rfl (fun c hc => hc.getCell_advance) ?_
      rcases hmsr with ⟨c, mask, rm, rfl⟩ | ⟨c, mask, rot, imm8, rfl⟩
      · exact .inl ⟨c, mask, rm, hi ⟨_, rfl⟩⟩
      · exact .inr ⟨c, mask, rot, imm8, hi ⟨_, rfl⟩⟩

/-- Settles O20: of the three kinds of step, an MSR of an SPSR changes nothing in USER mode, which has none. -/
theorem userModeContained : Obligations.UserModeContained := by
  intro s t hm h
  obtain ⟨u, rfl, hu⟩ := step_stepped h
  cases hu with
  | plain hspsrs huser hcells =>
    obtain ⟨hmode, hi, hf⟩ := huser hm
    exact .inl ⟨hmode, hi, hf, hspsrs⟩
  | msrSpsr v hcpsr hspsrs hcells hmsr =>
    refine .inl ⟨(congrArg Psr.m hcpsr).trans hm, congrArg Psr.i hcpsr, congrArg Psr.f hcpsr, ?_⟩
    rw [hm] at hspsrs
    exact hspsrs
  | entry m ret vec hv hent =>
    obtain ⟨hi, hf, ht, hmode⟩ := hent.control
    refine .inr ⟨?_, hi, hf, ht, (congrArg u.spsrs.get? hmode).trans hent.saved⟩
    rcases hv with ⟨rfl, rfl⟩ | ⟨rfl, rfl⟩ | ⟨rfl, rfl⟩
    · exact .inl ⟨hmode, hent.pc⟩
    · exact .inr (.inl ⟨hmode, hent.pc⟩)
    · exact .inr (.inr ⟨hmode, hent.pc⟩)

/-- Settles O21: an entry writes the SPSR of the mode entered alone, an MSR that of the mode it runs in. -/
theorem spsrWrittenOnlyByOwnMode : Obligations.SpsrWrittenOnlyByOwnMode := by
  intro s t m h
  obtain ⟨u, rfl, hu⟩ := step_stepped h
  cases hu with
  | plain hspsrs huser hcells => exact .inl (congrArg (·.get? m) hspsrs)
  | msrSpsr v hcpsr hspsrs hcells hmsr =>
    by_cases hm : m = s.cpsr.m
    · exact .inr (.inr ⟨hm.symm, hcpsr, hmsr⟩)
    · exact .inl ((congrArg (·.get? m) hspsrs).trans (Spsrs.get?_put_ne _ hm v))
  | entry m' ret vec hv hent =>
    obtain ⟨hi, hf, ht, hmode⟩ := hent.control
    by_cases hm : m = m'
    · subst hm
      exact .inr (.inl ⟨hmode, hi, ht, hent.pc.symm ▸ hv.mem, hent.saved⟩)
    · exact .inl (hent.otherSaved m hm)

/-- Settles O22: a cell out of reach stays, but for the r14 of a mode entered. -/
theorem banksIsolated : Obligations.BanksIsolated := by
  intro s t c h hview huser
  have hc : Outside s c := ⟨hview, huser⟩
  obtain ⟨u, rfl, hu⟩ := step_stepped h
  cases hu with
  | plain hspsrs _ hcells => exact .inl (hcells c hc)
  | msrSpsr v hcpsr hspsrs hcells hmsr => exact .inl (hcells c hc)
  | entry m ret vec hv hent =>
    obtain ⟨hi, hf, ht, hmode⟩ := hent.control
    by_cases hl : c = cell m 14
    · exact .inr ⟨hl.trans (congrArg (cell · 14) hmode.symm), hi, ht, hent.pc.symm ▸ hv.mem⟩
    · exact .inl (hent.cells c hl (huser 15))

end Sys2Proof.Machine
end

section
/-! The encoding (spec/30_encoding.md): no word selects two rows (R93, R113, R127), decoding undoes encoding, and which words
select no row (R112, R122). -/

namespace Sys2Proof

open Sys2Proof.Claims

/-! ## One row per word -/

theorem armTable_clash : armTable.Pairwise fun r r' => (r.bits ^^^ r'.bits) &&& (r.mask &&& r'.mask) ≠ 0#32 := by
  decide +kernel

theorem thumbTable_clash : thumbTable.Pairwise fun r r' => (r.bits ^^^ r'.bits) &&& (r.mask &&& r'.mask) ≠ 0#16 := by
  decide +kernel

/-- Settles O25: any two rows of a table differ in a bit that both test, so no word selects both (`Row.not_both_hit`). -/
theorem oneRowPerWord : Obligations.OneRowPerWord :=
  ⟨armTable_clash.imp Row.not_both_hit, thumbTable_clash.imp Row.not_both_hit⟩

/-! ## Decoding undoes encoding -/

/-- Every instruction's word selects the row that makes it again. -/
theorem selectsRow (i : Instr) : Laws.SelectsRow.Statement i := by
  cases i with
  | andImm => exact Laws.SelectsRow.andImm ..
  | andShImm => exact Laws.SelectsRow.andShImm ..
  | andShReg => exact Laws.SelectsRow.andShReg ..
  | eorImm => exact Laws.SelectsRow.eorImm ..
  | eorShImm => exact Laws.SelectsRow.eorShImm ..
  | eorShReg => exact Laws.SelectsRow.eorShReg ..
  | subImm => exact Laws.SelectsRow.subImm ..
  | subShImm => exact Laws.SelectsRow.subShImm ..
  | subShReg => exact Laws.SelectsRow.subShReg ..
  | rsbImm => exact Laws.SelectsRow.rsbImm ..
  | rsbShImm => exact Laws.SelectsRow.rsbShImm ..
  | rsbShReg => exact Laws.SelectsRow.rsbShReg ..
  | addImm => exact Laws.SelectsRow.addImm ..
  | addShImm => exact Laws.SelectsRow.addShImm ..
  | addShReg => exact Laws.SelectsRow.addShReg ..
  | adcImm => exact Laws.SelectsRow.adcImm ..
  | adcShImm => exact Laws.SelectsRow.adcShImm ..
  | adcShReg => exact Laws.SelectsRow.adcShReg ..
  | sbcImm => exact Laws.SelectsRow.sbcImm ..
  | sbcShImm => exact Laws.SelectsRow.sbcShImm ..
  | sbcShReg => exact Laws.SelectsRow.sbcShReg ..
  | rscImm => exact Laws.SelectsRow.rscImm ..
  | rscShImm => exact Laws.SelectsRow.rscShImm ..
  | rscShReg => exact Laws.SelectsRow.rscShReg ..
  | tstImm => exact Laws.SelectsRow.tstImm ..
  | tstShImm => exact Laws.SelectsRow.tstShImm ..
  | tstShReg => exact Laws.SelectsRow.tstShReg ..
  | teqImm => exact Laws.SelectsRow.teqImm ..
  | teqShImm => exact Laws.SelectsRow.teqShImm ..
  | teqShReg => exact Laws.SelectsRow.teqShReg ..
  | cmpImm => exact Laws.SelectsRow.cmpImm ..
  | cmpShImm => exact Laws.SelectsRow.cmpShImm ..
  | cmpShReg => exact Laws.SelectsRow.cmpShReg ..
  | cmnImm => exact Laws.SelectsRow.cmnImm ..
  | cmnShImm => exact Laws.SelectsRow.cmnShImm ..
  | cmnShReg => exact Laws.SelectsRow.cmnShReg ..
  | orrImm => exact Laws.SelectsRow.orrImm ..
  | orrShImm => exact Laws.SelectsRow.orrShImm ..
  | orrShReg => exact Laws.SelectsRow.orrShReg ..
  | movImm => exact Laws.SelectsRow.movImm ..
  | movShImm => exact Laws.SelectsRow.movShImm ..
  | movShReg => exact Laws.SelectsRow.movShReg ..
  | bicImm => exact Laws.SelectsRow.bicImm ..
  | bicShImm => exact Laws.SelectsRow.bicShImm ..
  | bicShReg => exact Laws.SelectsRow.bicShReg ..
  | mvnImm => exact Laws.SelectsRow.mvnImm ..
  | mvnShImm => exact Laws.SelectsRow.mvnShImm ..
  | mvnShReg => exact Laws.SelectsRow.mvnShReg ..
  | mul => exact Laws.SelectsRow.mul ..
  | mla => exact Laws.SelectsRow.mla ..
  | umull => exact Laws.SelectsRow.umull ..
  | umlal => exact Laws.SelectsRow.umlal ..
  | smull => exact Laws.SelectsRow.smull ..
  | smlal => exact Laws.SelectsRow.smlal ..
  | mrs => exact Laws.SelectsRow.mrs ..
  | msrReg => exact Laws.SelectsRow.msrReg ..
  | msrImm => exact Laws.SelectsRow.msrImm ..
  | ldrImmPre => exact Laws.SelectsRow.ldrImmPre ..
  | ldrImmPost => exact Laws.SelectsRow.ldrImmPost ..
  | ldrtImm => exact Laws.SelectsRow.ldrtImm ..
  | ldrRegPre => exact Laws.SelectsRow.ldrRegPre ..
  | ldrRegPost => exact Laws.SelectsRow.ldrRegPost ..
  | ldrtReg => exact Laws.SelectsRow.ldrtReg ..
  | strImmPre => exact Laws.SelectsRow.strImmPre ..
  | strImmPost => exact Laws.SelectsRow.strImmPost ..
  | strtImm => exact Laws.SelectsRow.strtImm ..
  | strRegPre => exact Laws.SelectsRow.strRegPre ..
  | strRegPost => exact Laws.SelectsRow.strRegPost ..
  | strtReg => exact Laws.SelectsRow.strtReg ..
  | ldrbImmPre => exact Laws.SelectsRow.ldrbImmPre ..
  | ldrbImmPost => exact Laws.SelectsRow.ldrbImmPost ..
  | ldrbtImm => exact Laws.SelectsRow.ldrbtImm ..
  | ldrbRegPre => exact Laws.SelectsRow.ldrbRegPre ..
  | ldrbRegPost => exact Laws.SelectsRow.ldrbRegPost ..
  | ldrbtReg => exact Laws.SelectsRow.ldrbtReg ..
  | strbImmPre => exact Laws.SelectsRow.strbImmPre ..
  | strbImmPost => exact Laws.SelectsRow.strbImmPost ..
  | strbtImm => exact Laws.SelectsRow.strbtImm ..
  | strbRegPre => exact Laws.SelectsRow.strbRegPre ..
  | strbRegPost => exact Laws.SelectsRow.strbRegPost ..
  | strbtReg => exact Laws.SelectsRow.strbtReg ..
  | strhReg => exact Laws.SelectsRow.strhReg ..
  | strhImm => exact Laws.SelectsRow.strhImm ..
  | ldrhReg => exact Laws.SelectsRow.ldrhReg ..
  | ldrhImm => exact Laws.SelectsRow.ldrhImm ..
  | ldrsbReg => exact Laws.SelectsRow.ldrsbReg ..
  | ldrsbImm => exact Laws.SelectsRow.ldrsbImm ..
  | ldrshReg => exact Laws.SelectsRow.ldrshReg ..
  | ldrshImm => exact Laws.SelectsRow.ldrshImm ..
  | swp => exact Laws.SelectsRow.swp ..
  | swpb => exact Laws.SelectsRow.swpb ..
  | ldm => exact Laws.SelectsRow.ldm ..
  | ldmUser => exact Laws.SelectsRow.ldmUser ..
  | ldmRestore => exact Laws.SelectsRow.ldmRestore ..
  | stm => exact Laws.SelectsRow.stm ..
  | stmUser => exact Laws.SelectsRow.stmUser ..
  | b => exact Laws.SelectsRow.b ..
  | bl => exact Laws.SelectsRow.bl ..
  | bx => exact Laws.SelectsRow.bx ..
  | blx => exact Laws.SelectsRow.blx ..
  | swi => exact Laws.SelectsRow.swi ..
  | undefinedPattern => exact Laws.SelectsRow.undefinedPattern ..
  | tLslImm => exact Laws.SelectsRow.tLslImm ..
  | tLsrImm => exact Laws.SelectsRow.tLsrImm ..
  | tAsrImm => exact Laws.SelectsRow.tAsrImm ..
  | tAddReg => exact Laws.SelectsRow.tAddReg ..
  | tSubReg => exact Laws.SelectsRow.tSubReg ..
  | tAddImm3 => exact Laws.SelectsRow.tAddImm3 ..
  | tSubImm3 => exact Laws.SelectsRow.tSubImm3 ..
  | tMovImm => exact Laws.SelectsRow.tMovImm ..
  | tCmpImm => exact Laws.SelectsRow.tCmpImm ..
  | tAddImm => exact Laws.SelectsRow.tAddImm ..
  | tSubImm => exact Laws.SelectsRow.tSubImm ..
  | tAnd => exact Laws.SelectsRow.tAnd ..
  | tEor => exact Laws.SelectsRow.tEor ..
  | tLslReg => exact Laws.SelectsRow.tLslReg ..
  | tLsrReg => exact Laws.SelectsRow.tLsrReg ..
  | tAsrReg => exact Laws.SelectsRow.tAsrReg ..
  | tAdc => exact Laws.SelectsRow.tAdc ..
  | tSbc => exact Laws.SelectsRow.tSbc ..
  | tRorReg => exact Laws.SelectsRow.tRorReg ..
  | tTst => exact Laws.SelectsRow.tTst ..
  | tNeg => exact Laws.SelectsRow.tNeg ..
  | tCmpReg => exact Laws.SelectsRow.tCmpReg ..
  | tCmn => exact Laws.SelectsRow.tCmn ..
  | tOrr => exact Laws.SelectsRow.tOrr ..
  | tMul => exact Laws.SelectsRow.tMul ..
  | tBic => exact Laws.SelectsRow.tBic ..
  | tMvn => exact Laws.SelectsRow.tMvn ..
  | tAddHi => exact Laws.SelectsRow.tAddHi ..
  | tCmpHi => exact Laws.SelectsRow.tCmpHi ..
  | tMovHi => exact Laws.SelectsRow.tMovHi ..
  | tBx => exact Laws.SelectsRow.tBx ..
  | tLdrPc => exact Laws.SelectsRow.tLdrPc ..
  | tStrReg => exact Laws.SelectsRow.tStrReg ..
  | tStrbReg => exact Laws.SelectsRow.tStrbReg ..
  | tLdrReg => exact Laws.SelectsRow.tLdrReg ..
  | tLdrbReg => exact Laws.SelectsRow.tLdrbReg ..
  | tStrhReg => exact Laws.SelectsRow.tStrhReg ..
  | tLdrhReg => exact Laws.SelectsRow.tLdrhReg ..
  | tLdsb => exact Laws.SelectsRow.tLdsb ..
  | tLdsh => exact Laws.SelectsRow.tLdsh ..
  | tStrImm => exact Laws.SelectsRow.tStrImm ..
  | tLdrImm => exact Laws.SelectsRow.tLdrImm ..
  | tStrbImm => exact Laws.SelectsRow.tStrbImm ..
  | tLdrbImm => exact Laws.SelectsRow.tLdrbImm ..
  | tStrhImm => exact Laws.SelectsRow.tStrhImm ..
  | tLdrhImm => exact Laws.SelectsRow.tLdrhImm ..
  | tStrSp => exact Laws.SelectsRow.tStrSp ..
  | tLdrSp => exact Laws.SelectsRow.tLdrSp ..
  | tAddPc => exact Laws.SelectsRow.tAddPc ..
  | tAddSp => exact Laws.SelectsRow.tAddSp ..
  | tSpAdd => exact Laws.SelectsRow.tSpAdd ..
  | tSpSub => exact Laws.SelectsRow.tSpSub ..
  | tPush => exact Laws.SelectsRow.tPush ..
  | tPop => exact Laws.SelectsRow.tPop ..
  | tStmia => exact Laws.SelectsRow.tStmia ..
  | tLdmia => exact Laws.SelectsRow.tLdmia ..
  | tBeq => exact Laws.SelectsRow.tBeq ..
  | tBne => exact Laws.SelectsRow.tBne ..
  | tBcs => exact Laws.SelectsRow.tBcs ..
  | tBcc => exact Laws.SelectsRow.tBcc ..
  | tBmi => exact Laws.SelectsRow.tBmi ..
  | tBpl => exact Laws.SelectsRow.tBpl ..
  | tBvs => exact Laws.SelectsRow.tBvs ..
  | tBvc => exact Laws.SelectsRow.tBvc ..
  | tBhi => exact Laws.SelectsRow.tBhi ..
  | tBls => exact Laws.SelectsRow.tBls ..
  | tBge => exact Laws.SelectsRow.tBge ..
  | tBlt => exact Laws.SelectsRow.tBlt ..
  | tBgt => exact Laws.SelectsRow.tBgt ..
  | tBle => exact Laws.SelectsRow.tBle ..
  | tSwi => exact Laws.SelectsRow.tSwi ..
  | tB => exact Laws.SelectsRow.tB ..
  | tBlHigh => exact Laws.SelectsRow.tBlHigh ..
  | tBlLow => exact Laws.SelectsRow.tBlLow ..
  | tBlxLow => exact Laws.SelectsRow.tBlxLow ..

theorem decodeArm_of_encode {i : Instr} {w : Word} (h : encode i = .arm w) : decodeArm w = .ok i := by
  have hrow := selectsRow i
  rw [Laws.SelectsRow.Statement, h] at hrow
  obtain ⟨c, r, hmem, hc, hhits, hbuild⟩ := hrow
  simp only [decodeArm, hc, lookup_of_hits oneRowPerWord.1 hmem hhits, hbuild]

theorem decodeThumb_of_encode {i : Instr} {h : Half} (hi : encode i = .thumb h) : decodeThumb h = .ok i := by
  have hrow := selectsRow i
  rw [Laws.SelectsRow.Statement, hi] at hrow
  obtain ⟨r, hmem, hhits, hbuild⟩ := hrow
  simp only [decodeThumb, lookup_of_hits oneRowPerWord.2 hmem hhits, hbuild]

/-- Adjacent fields put together are one field. -/
theorem field_append_field {n : Nat} (w : BitVec n) (lo k len : Nat) :
    field w (lo + k) len ++ field w lo k = field w lo (len + k) := by
  apply BitVec.eq_of_getLsbD_eq
  intro j hj
  simp only [field, BitVec.getLsbD_append, BitVec.getLsbD_extractLsb', hj, decide_true, Bool.true_and]
  by_cases hk : j < k
  · simp [hk]
  · simp [hk, show j - k < len by omega, show lo + k + (j - k) = lo + j by omega]

theorem field_all {n : Nat} (w : BitVec n) : field w 0 n = w := BitVec.extractLsb'_eq_self

/-- A word is its four bytes, lowest first (R69). -/
theorem word_of_bytes (w : Word) : field w 24 8 ++ field w 16 8 ++ field w 8 8 ++ field w 0 8 = w := by
  rw [field_append_field w 16 8 8, field_append_field w 8 8 16, field_append_field w 0 8 24, field_all]

theorem half_of_bytes (h : Half) : field h 8 8 ++ field h 0 8 = h := by
  rw [field_append_field h 0 8 8, field_all]

/-- Settles O23: the word selects the instruction's row (`selectsRow`), and the four bytes are the word again. -/
theorem armDecodeEncode : Obligations.ArmDecodeEncode := by
  intro i w h
  have hd := decodeArm_of_encode h
  have hbytes : encodeBytes i = [field w 0 8, field w 8 8, field w 16 8, field w 24 8] := by rw [encodeBytes, h, codeBytes]
  refine ⟨hd, congrArg List.length hbytes, fun rest => ?_⟩
  rw [hbytes]
  simp only [List.cons_append, List.nil_append, decodeBytes, word_of_bytes, decode, hd, Except.map]

/-- Settles O24: the same for halfwords. -/
theorem thumbDecodeEncode : Obligations.ThumbDecodeEncode := by
  intro i h hi
  have hd := decodeThumb_of_encode hi
  have hbytes : encodeBytes i = [field h 0 8, field h 8 8] := by rw [encodeBytes, hi, codeBytes]
  refine ⟨hd, congrArg List.length hbytes, fun rest => ?_⟩
  rw [hbytes]
  simp only [List.cons_append, List.nil_append, decodeBytes, half_of_bytes, decode, hd, Except.map]

/-! ## Words written out from the formats -/

theorem decodeArm_armWords : ∀ p ∈ armWords, decodeArm p.1 = .ok p.2 := by decide +kernel

theorem decodeThumb_thumbWords : ∀ p ∈ thumbWords, decodeThumb p.1 = .ok p.2 := by decide +kernel

theorem armTable_has_word : ∀ r ∈ armTable, ∃ p ∈ armWords, r.hits p.1 = true := by decide +kernel

theorem thumbTable_has_word : ∀ r ∈ thumbTable, ∃ p ∈ thumbWords, r.hits p.1 = true := by decide +kernel

/-- Settles O27: closed decodings, each evaluated. -/
theorem decodedWords : Obligations.DecodedWords := by
  refine ⟨?_, ?_, ?_, ?_, ?_, ?_, ?_, ?_, ?_, ?_, ?_, ?_, ?_, decodeArm_armWords, decodeThumb_thumbWords,
    armTable_has_word, thumbTable_has_word⟩ <;> decide +kernel

end Sys2Proof
end

section
/-! The words that select no row (spec/30_encoding.md R112, R122). A conjunction of field values is a pattern
`w &&& m = b`, and a row that tests one of its bits for the other value is not selected. -/

namespace Sys2Proof

open Sys2Proof.Claims

/-! ## Patterns -/

/-- A field with a known value is a pattern. -/
theorem pattern_of_field {n lo len : Nat} {w : BitVec n} {v : BitVec len} (h : field w lo len = v) :
    w &&& put lo (BitVec.allOnes len) = put lo v := by
  subst h
  apply BitVec.eq_of_getLsbD_eq
  intro j hj
  by_cases hlo : j < lo
  · simp [put, hlo]
  · by_cases hlen : j - lo < len
    · simp [put, field, hlo, hj, hlen, show lo + (j - lo) = j by omega]
    · simp [put, hlo, hj, hlen, BitVec.getLsbD_of_ge (field w lo len) (j - lo) (by omega)]

/-- A bit with a known value is a pattern. -/
theorem pattern_of_bit {n k : Nat} {w : BitVec n} {x : Bool} (h : w.getLsbD k = x) :
    w &&& put k 1#1 = put k (BitVec.ofBool x) := by
  refine pattern_of_field (len := 1) ?_
  subst h
  apply BitVec.eq_of_getLsbD_eq
  intro j hj
  obtain rfl : j = 0 := by omega
  cases hw : w.getLsbD k <;> simpa [field, BitVec.ofBool] using hw

/-- Two patterns are one. -/
theorem pattern_and {n : Nat} {w m m' b b' : BitVec n} (h : w &&& m = b) (h' : w &&& m' = b') :
    w &&& (m ||| m') = b ||| b' := by
  rw [← h, ← h']
  ext k hk
  simp only [BitVec.getElem_and, BitVec.getElem_or, Bool.and_or_distrib_left]

/-- A word of a pattern has none that differs from it in a bit both test. -/
theorem pattern_clash {n : Nat} {w m m' b b' : BitVec n} (h : w &&& m = b) (hc : (b ^^^ b') &&& (m &&& m') ≠ 0#n) :
    w &&& m' ≠ b' := fun h' =>
  Row.not_both_hit (r := ⟨m, b, ()⟩) (r' := ⟨m', b', ()⟩) hc w ⟨beq_iff_eq.2 h, beq_iff_eq.2 h'⟩

/-- A field that a pattern fixes. -/
theorem field_of_pattern {n lo len : Nat} {w m b : BitVec n} {v : BitVec len} (h : w &&& m = b)
    (hm : field m lo len = BitVec.allOnes len) (hb : field b lo len = v) : field w lo len = v := by
  subst hb h
  apply BitVec.eq_of_getLsbD_eq
  intro j hj
  have hmj : (field m lo len).getLsbD j = true := by rw [hm, BitVec.getLsbD_allOnes, decide_eq_true hj]
  simp only [field, BitVec.getLsbD_extractLsb', BitVec.getLsbD_and, hj, decide_true, Bool.true_and] at hmj ⊢
  rw [hmj, Bool.and_true]

theorem field_ne_of_pattern {n lo len : Nat} {w m b : BitVec n} (h : w &&& m = b) {v : BitVec len}
    (hc : (b ^^^ put lo v) &&& (m &&& put lo (BitVec.allOnes len)) ≠ 0#n) : field w lo len ≠ v := fun e =>
  pattern_clash h hc (pattern_of_field e)

/-- No row is selected by a word of a pattern that every row clashes with, save rows of patterns it is known not to have. -/
theorem lookup_eq_none_of_clash {n : Nat} {β : Type} {rows : List (Row n β)} {w m b : BitVec n} (h : w &&& m = b)
    (other : List (BitVec n × BitVec n)) (hother : ∀ p ∈ other, w &&& p.1 ≠ p.2)
    (hrows : ∀ r ∈ rows, (b ^^^ r.bits) &&& (m &&& r.mask) ≠ 0#n ∨ (r.mask, r.bits) ∈ other) : lookup rows w = none := by
  refine List.find?_eq_none.2 fun r hr hhit => ?_
  have hhit : w &&& r.mask = r.bits := beq_iff_eq.1 hhit
  rcases hrows r hr with hc | ho
  · exact pattern_clash h hc hhit
  · exact hother _ ho hhit

theorem lookup_eq_none_of_all_clash {n : Nat} {β : Type} {rows : List (Row n β)} {w m b : BitVec n} (h : w &&& m = b)
    (hrows : ∀ r ∈ rows, (b ^^^ r.bits) &&& (m &&& r.mask) ≠ 0#n) : lookup rows w = none :=
  lookup_eq_none_of_clash h [] (fun _ hp => by cases hp) fun r hr => .inl (hrows r hr)

theorem exists_bit_of_field_ne_zero {n lo len : Nat} {w : BitVec n} (h : w.extractLsb' lo len ≠ 0#len) :
    ∃ j, j < len ∧ w.getLsbD (lo + j) = true := by
  by_contra hno
  refine h (BitVec.eq_of_getLsbD_eq fun j hj => ?_)
  have hbit : w.getLsbD (lo + j) = false := by
    rw [← Bool.not_eq_true]
    exact fun hb => hno ⟨j, hj, hb⟩
  simp [hbit]

/-! ## The spaces of R112 -/

/-- A word of a space selects no row, and the decoder's tests name the space. -/
def RejectedAs (w : Word) (sp : ArmSpace) : Prop := lookup armTable w = none ∧ armSpace w = sp

theorem rejectedAs_x1 {w : Word} (h : InSpace .x1 w) : RejectedAs w .x1 := by
  change field w 25 3 = 0b110 at h
  refine ⟨lookup_eq_none_of_all_clash (pattern_of_field h) (by decide +kernel), ?_⟩
  rw [armSpace, if_pos h]

theorem rejectedAs_x2 {w : Word} (h : InSpace .x2 w) : RejectedAs w .x2 := by
  change field w 24 4 = 0b1110 at h
  have hp := pattern_of_field h
  refine ⟨lookup_eq_none_of_all_clash hp (by decide +kernel), ?_⟩
  rw [armSpace, if_neg (field_ne_of_pattern hp (by decide)), if_pos h]

theorem rejectedAs_x3 {w : Word} (h : InSpace .x3 w) : RejectedAs w .x3 := by
  obtain ⟨hop, hs⟩ : field w 23 5 = 0b00110 ∧ field w 20 2 = 0b00 := h
  have hp := pattern_of_field hop
  refine ⟨lookup_eq_none_of_all_clash (pattern_and hp (pattern_of_field hs)) (by decide +kernel), ?_⟩
  rw [armSpace, if_neg (field_ne_of_pattern hp (by decide)), if_neg (field_ne_of_pattern hp (by decide)), if_pos hop]

/-- The tests before those of X4, X5 and X6 fail for every word with bits 27:25 zero. -/
theorem armSpace_of_bits_zero {w : Word} (h : field w 25 3 = 0b000) : armSpace w =
    if field w 4 4 = 0b1001 then .x5 else if field w 6 2 = 0b11 ∧ field w 4 1 = 0b1 then .x6 else .x4 := by
  have hp := pattern_of_field h
  rw [armSpace, if_neg (field_ne_of_pattern hp (by decide)), if_neg (field_ne_of_pattern hp (by decide)),
    if_neg (field_ne_of_pattern hp (by decide))]

/-- The rows of MRS, MSR (register), BX and BLX are those that X4 leaves out by name. -/
theorem x4_selects_no_named_row {w : Word} (h : InSpace .x4 w) : ∀ p ∈ [(0x0FB00FF0#32, 0x01000000#32),
    (0x0FB00FF0#32, 0x01200000#32), (0x0FFFFFF0#32, 0x012FFF10#32), (0x0FFFFFF0#32, 0x012FFF30#32)], w &&& p.1 ≠ p.2 := by
  obtain ⟨-, -, -, hbx, hblx, hmrs, hmsr⟩ := h
  have mrs : w &&& 0x0FB00FF0#32 ≠ 0x01000000#32 := fun e =>
    hmrs ⟨field_of_pattern e (by decide) (by decide), field_of_pattern e (by decide) (by decide)⟩
  have msr : w &&& 0x0FB00FF0#32 ≠ 0x01200000#32 := fun e =>
    hmsr ⟨field_of_pattern e (by decide) (by decide), field_of_pattern e (by decide) (by decide)⟩
  have bx : w &&& 0x0FFFFFF0#32 ≠ 0x012FFF10#32 := fun e => hbx (field_of_pattern e (by decide) (by decide))
  have blx : w &&& 0x0FFFFFF0#32 ≠ 0x012FFF30#32 := fun e => hblx (field_of_pattern e (by decide) (by decide))
  simpa using ⟨mrs, msr, bx, blx⟩

theorem rejectedAs_x4 {w : Word} (h : InSpace .x4 w) : RejectedAs w .x4 := by
  have hother := x4_selects_no_named_row h
  obtain ⟨hop, hs, h74, -⟩ := h
  have hp := pattern_and (pattern_of_field hop) (pattern_of_bit hs)
  have h74' : w.getLsbD 7 = false ∨ w.getLsbD 4 = false := by
    rw [← Bool.and_eq_false_iff, ← Bool.not_eq_true, Bool.and_eq_true]
    exact h74
  constructor
  · rcases h74' with h | h
    · exact lookup_eq_none_of_clash (pattern_and hp (pattern_of_bit h)) _ hother (by decide +kernel)
    · exact lookup_eq_none_of_clash (pattern_and hp (pattern_of_bit h)) _ hother (by decide +kernel)
  · have hx5 : field w 4 4 ≠ 0b1001 := by
      rcases h74' with h | h <;> exact field_ne_of_pattern (pattern_of_bit h) (by decide)
    have hx6 : ¬(field w 6 2 = 0b11 ∧ field w 4 1 = 0b1) := by
      rintro ⟨h6, h4⟩
      rcases h74' with h | h
      · exact field_ne_of_pattern (pattern_of_bit h) (by decide) h6
      · exact field_ne_of_pattern (pattern_of_bit h) (by decide) h4
    rw [armSpace_of_bits_zero (field_of_pattern hp (by decide) (by decide)), if_neg hx5, if_neg hx6]

/-- X5 by the bit or field that clashes with SWP and the multiplies: a field other than zero has a bit set. -/
theorem rejectedAs_x5 {w : Word} (h : InSpace .x5 w) : RejectedAs w .x5 := by
  obtain ⟨hop, hmul, hrest⟩ : field w 25 3 = 0b000 ∧ field w 4 4 = 0b1001 ∧ _ := h
  have hp := pattern_and (pattern_of_field hop) (pattern_of_field hmul)
  refine ⟨?_, by rw [armSpace_of_bits_zero hop, if_pos hmul]⟩
  rcases hrest with hlow | ⟨hop', hrest⟩
  · exact lookup_eq_none_of_all_clash (pattern_and hp (pattern_of_field hlow)) (by decide +kernel)
  have hp := pattern_and hp (pattern_of_field hop')
  rcases hrest with h23 | hs | hsbo
  · exact lookup_eq_none_of_all_clash (pattern_and hp (pattern_of_bit h23)) (by decide +kernel)
  · obtain ⟨j, hj, hbit⟩ := exists_bit_of_field_ne_zero hs
    interval_cases j <;> exact lookup_eq_none_of_all_clash (pattern_and hp (pattern_of_bit hbit)) (by decide +kernel)
  · obtain ⟨j, hj, hbit⟩ := exists_bit_of_field_ne_zero hsbo
    interval_cases j <;> exact lookup_eq_none_of_all_clash (pattern_and hp (pattern_of_bit hbit)) (by decide +kernel)

theorem rejectedAs_x6 {w : Word} (h : InSpace .x6 w) : RejectedAs w .x6 := by
  obtain ⟨hop, hl, h76, h4⟩ := h
  have hp76 := pattern_of_field h76
  have hp4 := pattern_of_bit h4
  refine ⟨lookup_eq_none_of_all_clash (pattern_and (pattern_and (pattern_of_field hop) (pattern_of_bit hl))
    (pattern_and hp76 hp4)) (by decide +kernel), ?_⟩
  rw [armSpace_of_bits_zero hop, if_neg (field_ne_of_pattern hp76 (by decide)),
    if_pos ⟨h76, field_of_pattern hp4 (by decide) (by decide)⟩]

theorem rejectedAs_of_inSpace {w : Word} {sp : ArmSpace} (h : InSpace sp w) : RejectedAs w sp := by
  cases sp with
  | x1 => exact rejectedAs_x1 h
  | x2 => exact rejectedAs_x2 h
  | x3 => exact rejectedAs_x3 h
  | x4 => exact rejectedAs_x4 h
  | x5 => exact rejectedAs_x5 h
  | x6 => exact rejectedAs_x6 h

/-! ## The unallocated halfwords of R122 -/

/-- No THUMB row tests one of the bits 5:0. -/
theorem thumbTable_tests_high : ∀ r ∈ thumbTable, r.mask &&& 0xFFC0#16 = r.mask := by decide +kernel

/-- The halfword with a given bits 15:6. -/
def halfOfHigh (k : BitVec 10) : Half := put 6 k

/-- Bits 15:6 decide which row a halfword selects. -/
theorem lookup_thumb_high (h : Half) : lookup thumbTable h = lookup thumbTable (halfOfHigh (field h 6 10)) := by
  have hhigh : halfOfHigh (field h 6 10) = h &&& 0xFFC0#16 := (pattern_of_field (lo := 6) rfl).symm
  have hhits : ∀ r ∈ thumbTable, r.hits h = r.hits (halfOfHigh (field h 6 10)) := by
    intro r hr
    rw [hhigh, Row.hits, Row.hits, BitVec.and_assoc, BitVec.and_comm 0xFFC0#16, thumbTable_tests_high r hr]
  exact List.find?_congr hhits

/-- R122, by bits 15:6. -/
theorem lookup_halfOfHigh_eq_none (k : BitVec 10) : (lookup thumbTable (halfOfHigh k)).isNone = true ↔
    field k 2 8 = 0b11011110 ∨ field k 1 9 = 0b010001111 ∨
      (field k 6 4 = 0b1011 ∧ field k 2 4 ≠ 0b0000 ∧ field k 3 2 ≠ 0b10) := by
  revert k
  decide +kernel

theorem field_field {n : Nat} (w : BitVec n) (lo len lo' len' : Nat) (hle : lo' + len' ≤ len) :
    field (field w lo len) lo' len' = field w (lo + lo') len' := by
  apply BitVec.eq_of_getLsbD_eq
  intro j hj
  simp [field, hj, show lo' + j < len by omega, Nat.add_assoc]

theorem lookup_thumbTable_eq_none_iff (h : Half) : lookup thumbTable h = none ↔
    field h 8 8 = 0b11011110 ∨ field h 7 9 = 0b010001111 ∨
      (field h 12 4 = 0b1011 ∧ field h 8 4 ≠ 0b0000 ∧ field h 9 2 ≠ 0b10) := by
  rw [lookup_thumb_high, ← Option.isNone_iff_eq_none, lookup_halfOfHigh_eq_none]
  simp (discharger := decide) only [field_field, Nat.reduceAdd]

theorem decodeThumb_eq_unallocated_iff (h : Half) :
    decodeThumb h = .error .unallocatedThumb ↔ lookup thumbTable h = none := by
  unfold decodeThumb
  cases lookup thumbTable h <;> simp

/-- Settles O26: a word of a space clashes with every row, and bits 15:6 of a halfword decide. -/
theorem unallocatedRejected : Obligations.UnallocatedRejected := by
  refine ⟨fun w c sp hc hsp => ?_, fun h => (decodeThumb_eq_unallocated_iff h).trans (lookup_thumbTable_eq_none_iff h)⟩
  obtain ⟨hlookup, hspace⟩ := rejectedAs_of_inSpace hsp
  have hc : Cond.ofBits (field w 28 4) = some c := hc
  simp only [decodeArm, hc, hlookup, hspace]

end Sys2Proof
end

section
/-! The step by what its slot holds (spec/49_execution_loop.md, spec/60_exceptions.md): the IRQ entry, an ARM word that is
skipped, the undefined route, and SWI. Also the condition table and the invariant of the initial states. -/

namespace Sys2Proof.Machine

open Sys2Proof.Claims

/-- Settles O6: sixteen valuations of the flags, each row evaluated. -/
theorem conditionTable : Obligations.ConditionTable := by
  unfold Obligations.ConditionTable
  decide

/-- The entry point is word-aligned, so r15 and the slot of every initial state are as R38 asks. -/
theorem State.inv_initialise {init : Init} (hm : init.mem.wf = true) : (State.initialise init).inv = true := by
  have hpc : (State.initialise init).pc = entryPoint := State.getCell_initialise init (.gen 15)
  rw [State.inv_iff, hpc]
  have haligned : wordAddr entryPoint = entryPoint := by decide
  exact ⟨haligned, rfl, hm⟩

/-- Settles O13, for reset with the empty memory. -/
theorem initialInvariant : Obligations.InitialInvariant :=
  ⟨fun _ hm => State.inv_initialise hm, State.inv_initialise (init := Init.zero) rfl⟩

/-! ## Exceptions -/

/-- Settles O14: the step is the entry from the opened state, then the refill (`step_of_irqDue`). -/
theorem irqEntry : Obligations.IrqEntry := fun s hirq =>
  ⟨_, _, entered_takeIrq s, rfl, State.refilled_refill _, step_of_irqDue hirq⟩

/-- SWI enters SUPERVISOR mode at its vector, whatever the state bit says of the return address (R455, R459). -/
theorem entered_takeSwi (s : State) {ret : Word} (hret : s.nextInstr = ret) :
    Entered s s.takeSwi .supervisor ret 0x00000008 := by
  subst hret
  exact s.entered_exceptionEntry s.nextInstr rfl (by decide)

/-- Settles O19: the two forms differ in the length of the instruction, hence in the return address. -/
theorem swiEntry : Obligations.SwiEntry := by
  refine fun s => ⟨fun c comment24 ht hc => ?arm, fun value8 ht => ?thumb⟩
  case arm =>
    have hret : s.nextInstr = s.now.ia + 4 := by rw [State.nextInstr, ht]; rfl
    exact ⟨s.takeSwi, State.ifCond_pass hc _, entered_takeSwi s hret, rfl, rfl⟩
  case thumb =>
    have hret : s.nextInstr = s.now.ia + 2 := by rw [State.nextInstr, ht]; rfl
    exact ⟨s.takeSwi, rfl, entered_takeSwi s hret, rfl, rfl⟩

/-! ## Words that are skipped -/

/-- A step whose word, on the begun state, changes nothing is the advance and the refill (R434). -/
theorem step_skips {s : State} (h : step s = finishStep (.next s.openStep.advance)) :
    ∃ b u, Begun s b ∧ Refilled b u ∧ step s = .next u :=
  ⟨_, _, s.begun_advance, State.refilled_refill _, h⟩

theorem slotWord_arm {s : State} (ht : s.cpsr.t = false) : decode (slotWord s) = decodeArm s.slot.word := by
  simp only [slotWord, ht, Bool.false_eq_true, if_false, decode]

/-- Every ARM row makes an instruction under the condition of the word (R91). -/
theorem condition_build : ∀ r ∈ armTable, ∀ (c : Cond) (w : Word), condition (r.build c w) = c := by
  repeat refine List.forall_mem_cons.2 ⟨fun _ _ => rfl, ?_⟩
  exact fun r hr => by cases hr

/-- What the decoder makes of an ARM word with a real condition: an instruction under it, or an unallocated word of it. -/
theorem decodeArm_condition {w : Word} {c : Cond} (hc : Cond.ofBits (field w 28 4) = some c) :
    (∃ i, decodeArm w = .ok i ∧ condition i = c) ∨ ∃ sp, decodeArm w = .error (.unallocatedArm c sp) := by
  simp only [decodeArm, hc]
  cases hl : lookup armTable w with
  | some r => exact .inl ⟨_, rfl, condition_build r (lookup_mem hl) c w⟩
  | none => exact .inr ⟨_, rfl⟩

/-- Settles O16: an instruction whose condition fails changes nothing, and so does an unallocated word. -/
theorem failedConditionSkips : Obligations.FailedConditionSkips := by
  intro s c hirq ht hc hfail
  have hfail' : ¬Passes c s.openStep.advance := hfail
  apply step_skips
  rcases decodeArm_condition hc with ⟨i, hd, rfl⟩ | ⟨sp, hd⟩
  · rw [step_of_decode_ok hirq ((slotWord_arm ht).trans hd), exec_of_not_passes hfail']
  · rw [step_of_decode_error hirq ((slotWord_arm ht).trans hd), State.undecoded, State.ifCond_fail hfail']

/-- Settles O17: the field 1111 is no condition, and `COND_NV` says the rest. -/
theorem conditionNvWord : Obligations.ConditionNvWord := by
  intro s hirq ht hnv
  have hc : Cond.ofBits (field s.slot.word 28 4) = none := congrArg Cond.ofBits hnv
  have hd : decode (slotWord s) = .error .conditionNv := by
    rw [slotWord_arm ht]
    simp only [decodeArm, hc]
  have hstep : step s = finishStep s.openStep.advance.conditionNv := step_of_decode_error hirq hd
  refine ⟨fun hcfg => ?_, fun hcfg => step_skips ?_⟩
  · have hcfg' : s.openStep.advance.cfg.condNv = .refuse := hcfg
    rw [hstep, State.conditionNv, hcfg']
    rfl
  · have hcfg' : s.openStep.advance.cfg.condNv = .never := hcfg
    rw [hstep, State.conditionNv, hcfg']

/-! ## The undefined route -/

/-- Settles O18: each of the four answers by `State.undefinedRoute`. -/
theorem undefinedRoute : Obligations.UndefinedRoute := by
  refine ⟨fun s c hc => ?pattern, fun s c rn hc hblx => ?blx, fun s offset11 hblx => ?suffix, fun s hirq hd => ?word⟩
  case pattern =>
    rw [show exec (.undefinedPattern c) s = s.undefinedRoute from State.ifCond_pass hc _]
    exact s.undefinedTaken_undefinedRoute
  case blx =>
    have hexec : exec (.blx c rn) s = s.undefinedRoute :=
      (State.ifCond_pass hc _).trans (if_neg (Bool.eq_false_iff.1 hblx))
    rw [hexec]
    exact s.undefinedTaken_undefinedRoute
  case suffix =>
    have hexec : exec (.tBlxLow offset11) s = s.undefinedRoute := if_neg (Bool.eq_false_iff.1 hblx)
    rw [hexec]
    exact s.undefinedTaken_undefinedRoute
  case word =>
    have hstep : step s = finishStep s.openStep.advance.undefinedRoute := by
      rcases hd with ⟨c, sp, hd, hc⟩ | hd
      · have hc' : Passes c s.openStep.advance := hc
        rw [step_of_decode_error hirq hd, State.undecoded, State.ifCond_pass hc']
      · rw [step_of_decode_error hirq hd, State.undecoded]
    refine ⟨s.openStep.advance, _, s.begun_advance, State.undefinedTaken_undefinedRoute _, fun t ht => ?_⟩
    exact ⟨t.refill, t.refilled_refill, by rw [hstep, ht]; rfl⟩

end Sys2Proof.Machine
end

section
/-! Overflow as the signed range (spec/40_flags_and_shifter.md R137), the shifter's tables (R141 to R150), and what the bus
reads and writes (spec/20_memory.md R61 to R69). -/

namespace Sys2Proof.Machine

open Sys2Proof.Claims

/-! ## One adder

`Add`, `Sub` and `Sbc` are `Adc` of other operands (R137 (b)), so what V means is shown once. -/

theorem aluAdd_eq_aluAdc (a b : Word) : aluAdd a b = aluAdc a b false := by
  have hvalue : a + b = BitVec.ofNat 32 (a.toNat + b.toNat) := by
    apply BitVec.eq_of_toNat_eq
    rw [BitVec.toNat_add, BitVec.toNat_ofNat]
  simp only [aluAdd, aluAdc, Bool.toNat_false, Nat.add_zero, hvalue]

theorem aluSbc_eq_aluAdc (a b : Word) (cin : Bool) : aluSbc a b cin = aluAdc a (~~~b) cin := by
  have hmsb : (a.msb != b.msb) = (a.msb == (~~~b).msb) := by
    rw [BitVec.msb_not]
    cases a.msb <;> cases b.msb <;> rfl
  rw [aluSbc, hmsb]
  rfl

theorem aluSbc_carry (a b : Word) (cin : Bool) :
    (aluSbc a b cin).carry = decide (0 ≤ unsigned a - unsigned b - (1 - bitValue cin)) := by
  have hsum := sum_not_eq_sub_borrow a b cin
  change decide (2 ^ 32 ≤ a.toNat + (~~~b).toNat + cin.toNat) = _
  rw [decide_eq_decide]
  omega

theorem aluSub_carry (a b : Word) : (aluSub a b).carry = decide (0 ≤ unsigned a - unsigned b) := by
  change decide (b.toNat ≤ a.toNat) = _
  rw [decide_eq_decide, unsigned, unsigned]
  omega

theorem aluSub_eq_aluSbc (a b : Word) : aluSub a b = aluSbc a b true := by
  have hborrow : unsigned a - unsigned b - (1 - bitValue true) = unsigned a - unsigned b := by simp [bitValue]
  have hvalue : (aluSub a b).value = (aluSbc a b true).value := by rw [aluSub_value, aluSbc_value, hborrow]
  have hcarry : (aluSub a b).carry = (aluSbc a b true).carry := by rw [aluSub_carry, aluSbc_carry, hborrow]
  have hoverflow : (aluSub a b).overflow = (aluSbc a b true).overflow :=
    congrArg (fun r : Word => (a.msb != b.msb) && (r.msb != a.msb)) hvalue
  exact AluResult.mk.injEq .. ▸ ⟨hvalue, hcarry, hoverflow⟩

theorem aluAdc_toInt (a b : Word) (cin : Bool) :
    (aluAdc a b cin).value.toInt = (a.toInt + b.toInt + bitValue cin).bmod (2 ^ 32) := by
  change (BitVec.ofNat 32 (a.toNat + b.toNat + cin.toNat)).toInt = _
  rw [← BitVec.ofInt_natCast, BitVec.toInt_ofInt, BitVec.toInt_eq_toNat_bmod a, BitVec.toInt_eq_toNat_bmod b,
    ← natCast_toNat_eq_bitValue]
  push_cast
  rw [add_assoc (Int.bmod _ _), Int.bmod_add_bmod, add_left_comm, Int.bmod_add_bmod]
  congr 1
  ring

/-- R137 (a): equal signs of the operands and another one of the result, exactly when the signed sum leaves the range. -/
theorem aluAdc_overflow (a b : Word) (cin : Bool) :
    (aluAdc a b cin).overflow = overflows (a.toInt + b.toInt + bitValue cin) := by
  have hr := aluAdc_toInt a b cin
  have hcin : bitValue cin = 0 ∨ bitValue cin = 1 := by cases cin <;> simp [bitValue]
  have ha := a.toInt_lt
  have ha' := a.le_toInt
  have hb := b.toInt_lt
  have hb' := b.le_toInt
  rw [Int.bmod_def] at hr
  rw [Bool.eq_iff_iff, aluAdc_overflow_iff, overflows, decide_eq_true_iff, BitVec.msb_eq_toInt, BitVec.msb_eq_toInt,
    BitVec.msb_eq_toInt, decide_eq_decide, ne_eq, decide_eq_decide]
  generalize (aluAdc a b cin).value.toInt = r at *
  omega

theorem toInt_not_eq (b : Word) : (~~~b).toInt = -b.toInt - 1 := by
  have hb := b.isLt
  rw [BitVec.toInt_eq_toNat_cond, BitVec.toInt_eq_toNat_cond, BitVec.toNat_not]
  split <;> split <;> omega

theorem aluAdd_overflow (a b : Word) : (aluAdd a b).overflow = overflows (a.toInt + b.toInt) := by
  rw [aluAdd_eq_aluAdc, aluAdc_overflow]
  simp [bitValue]

theorem aluSbc_overflow (a b : Word) (cin : Bool) :
    (aluSbc a b cin).overflow = overflows (a.toInt - b.toInt - (1 - bitValue cin)) := by
  rw [aluSbc_eq_aluAdc, aluAdc_overflow, toInt_not_eq]
  congr 1
  omega

theorem aluSub_overflow (a b : Word) : (aluSub a b).overflow = overflows (a.toInt - b.toInt) := by
  rw [aluSub_eq_aluSbc, aluSbc_overflow]
  simp [bitValue]

/-- Settles O2: every adder is `Adc`, whose V is the signed range (`aluAdc_overflow`). -/
theorem overflowIsSignedRange : Obligations.OverflowIsSignedRange := fun a b cin =>
  ⟨aluAdd_overflow a b, aluSub_overflow a b, aluAdc_overflow a b cin, aluSbc_overflow a b cin, aluSbc_carry a b cin,
    (aluSub_eq_aluSbc a b).trans (aluSbc_eq_aluAdc a b true)⟩

/-! ## The shifter -/

theorem shiftLeft_eq_ofNat (v : Word) (n : Nat) : v <<< n = BitVec.ofNat 32 (v.toNat * 2 ^ n) := by
  apply BitVec.eq_of_toNat_eq
  rw [BitVec.toNat_shiftLeft, BitVec.toNat_ofNat, Nat.shiftLeft_eq]

theorem ushiftRight_eq_ofNat (v : Word) (n : Nat) : v >>> n = BitVec.ofNat 32 (v.toNat / 2 ^ n) := by
  apply BitVec.eq_of_toNat_eq
  rw [BitVec.toNat_ushiftRight, BitVec.toNat_ofNat, Nat.shiftRight_eq_div_pow,
    Nat.mod_eq_of_lt ((Nat.div_le_self _ _).trans_lt v.isLt)]

theorem sshiftRight_eq_ofInt (v : Word) (n : Nat) : v.sshiftRight n = BitVec.ofInt 32 (v.toInt / 2 ^ n) := by
  rw [BitVec.sshiftRight, Int.shiftRight_eq_div_pow]
  norm_cast

/-- A bit of a rotated word, the amount taken modulo the width. -/
theorem getLsbD_rotateRight_mod (v : Word) (n : Nat) {k : Nat} (hk : k < 32) :
    (v.rotateRight (n % 32)).getLsbD k = v.getLsbD ((k + n) % 32) := by
  rw [BitVec.getLsbD_rotateRight]
  by_cases h : k < 32 - n % 32 % 32
  · rw [decide_eq_true h, cond_true]
    congr 1
    omega
  · rw [decide_eq_false h, cond_false, decide_eq_true hk, Bool.true_and]
    congr 1
    omega

/-- Settles O3: the model's tests on the amount are those of the tables, and each value is its formula above. -/
theorem shifterTables : Obligations.ShifterTables := by
  intro v n cin
  refine ⟨?lsl, ?lsr, ?asr, fun h0 hm => ?full, rfl, fun hm => ?part⟩
  case lsl => simp only [shift, shiftLsl, shiftLeft_eq_ofNat, Nat.lt_succ_iff]
  case lsr => simp only [shift, shiftLsr, ushiftRight_eq_ofNat, Nat.lt_succ_iff]
  case asr => simp only [shift, shiftAsr, sshiftRight_eq_ofInt, Nat.lt_succ_iff]
  case full => simp only [shift, shiftRor, if_neg h0, if_pos hm]
  case part =>
    have h0 : n ≠ 0 := fun e => hm (by rw [e])
    have hror : shift .ror v n cin = (v.rotateRight (n % 32), v.getLsbD (n % 32 - 1)) := by
      simp only [shift, shiftRor, if_neg h0, if_neg hm]
    rw [hror]
    exact ⟨fun k hk => getLsbD_rotateRight_mod v n hk, rfl⟩

/-- R146: the carry comes in above the 31 bits that stay. -/
theorem rrx_toNat (v : Word) (cin : Bool) : (rrx v cin).1.toNat = v.toNat / 2 + cin.toNat * 2 ^ 31 := by
  have hv : v.toNat / 2 < 2 ^ 31 := by
    have := v.isLt
    omega
  have hc : ((BitVec.ofBool cin).setWidth 32 <<< 31 : Word).toNat = 2 ^ 31 * cin.toNat := by cases cin <;> rfl
  rw [rrx, BitVec.toNat_or, hc, BitVec.toNat_ushiftRight, Nat.shiftRight_eq_div_pow, pow_one, Nat.lor_comm,
    ← Nat.two_pow_add_eq_or_of_lt hv]
  omega

/-- A non-zero encoded amount is itself (R141). -/
theorem shiftImm_of_ne_zero (ty : ShiftType) (v : Word) {imm5 : BitVec 5} (h : imm5 ≠ 0) (cin : Bool) :
    shiftImm ty v imm5 cin = shift ty v imm5.toNat cin := by
  cases ty <;> simp only [shiftImm, if_neg h]

/-- Settles O4. -/
theorem shifterAmounts : Obligations.ShifterAmounts := by
  refine fun ty v rs imm5 cin => ⟨fun h => shiftImm_of_ne_zero ty v h cin, rfl, rfl, rfl, ⟨rrx_toNat v cin, rfl⟩, ?reg,
    fun rot imm8 => ⟨fun k hk => ?imm, rfl⟩⟩
  case reg =>
    have hlow : (rs.extractLsb' 0 8).toNat = rs.toNat % 256 := by simp
    rw [shiftReg, hlow]
  case imm =>
    have hrot : 2 * rot.toNat % 32 = 2 * rot.toNat := Nat.mod_eq_of_lt (by have := rot.isLt; omega)
    rw [← getLsbD_rotateRight_mod _ _ hk, hrot]
    rfl

/-! ## Memory -/

/-- Settles O8: reads and addresses are the definitions; a write is `State.storedBytes_busWrite`. -/
theorem memoryLayout : Obligations.MemoryLayout := fun _ w a v =>
  ⟨rfl, rfl, rfl, rfl, rfl, rfl, fun hm => ⟨State.storedBytes_busWrite hm w a v, State.wf_busWrite hm w a v⟩⟩

end Sys2Proof.Machine
end

section
/-! What each state operation leaves alone, as rules about `Frame`, `SameFlags`, `SameControl` and `Quiet`; with those of the
register write and the branch, every meaning is framed by composing them. -/

namespace Sys2Proof.Claims

open Sys2Proof.Machine

variable {s t : State} {written : List Cell} {calls : List BusCall} {branched : Bool}

theorem Frame.mono {written' : List Cell} (h : Frame s t written calls branched) (hsub : written ⊆ written') :
    Frame s t written' calls branched :=
  { h with cells := fun c hc => h.cells c fun hm => hc (hsub hm) }

/-- Another CPSR is no part of the frame. -/
theorem Frame.setCpsr (h : Frame s t written calls branched) (p : Cpsr) :
    Frame s { t with cpsr := p } written calls branched :=
  ⟨h.cells, h.spsrs, h.slot, h.irq, h.cfg, h.now⟩

theorem Frame.setFlagsIf (h : Frame s t written calls branched) (b : Bool) (f : Flags) :
    Frame s (t.setFlagsIf b f) written calls branched := by
  cases b
  · exact h
  · exact h.setCpsr _

theorem Frame.noteCall (h : Frame s t written calls branched) (k : BusCall) :
    Frame s (t.noteCall k) written (calls ++ [k]) branched where
  cells := h.cells
  spsrs := h.spsrs
  slot := h.slot
  irq := h.irq
  cfg := h.cfg
  now := by simp [h.now]

theorem Frame.busWrite (h : Frame s t written calls branched) (w : Width) (a v : Word) :
    Frame s (t.busWrite w a v) written
      (calls ++ [.write w (storeAddr w a) (BitVec.setWidth 32 (BitVec.setWidth (8 * widthBytes w) v))]) branched := by
  rw [← storePart_eq]
  exact ⟨h.cells, h.spsrs, h.slot, h.irq, h.cfg, (h.noteCall _).now⟩

theorem Frame.load (h : Frame s t written calls branched) (k : LoadKind) (a : Word) :
    Frame s (t.load k a).2 written (calls ++ [.read (loadWidth k a) a]) branched := by
  rw [loadWidth_eq]
  exact h.noteCall _

/-- A write of a destination register: r15 by a branch, which is marked. -/
theorem Frame.writeReg (h : Frame s t written calls false) (i : Reg) (v : Word) :
    Frame s (t.writeReg i v) (cell t.mode i :: written) calls (decide (i = 15)) := by
  unfold State.writeReg
  by_cases hi : i = 15
  · rw [if_pos hi, decide_eq_true hi, hi, cell_fifteen]
    exact h.branchTo v
  · rw [if_neg hi, decide_eq_false hi]
    exact h.setX i v

theorem sameFlags_of_cpsr (h : t.cpsr = s.cpsr) : SameFlags s t := by
  rw [SameFlags, FlagsAre, h]
  exact ⟨rfl, rfl, rfl, rfl⟩

theorem sameControl_of_cpsr (h : t.cpsr = s.cpsr) : SameControl s t := by
  rw [SameControl, h]
  exact ⟨rfl, rfl, rfl, rfl⟩

theorem sameBytes_of_mem (h : t.mem = s.mem) : SameBytes s t := fun a => by rw [h]

/-- A register write alone. -/
theorem quiet_setX (s : State) (i : Reg) (v : Word) : Quiet s (s.setX i v) [cell s.mode i] :=
  ⟨sameControl_of_cpsr rfl, (Frame.refl s).setX i v, sameBytes_of_mem rfl⟩

theorem quiet_setFlagsIf (h : Quiet s t written) (b : Bool) (f : Flags) : Quiet s (t.setFlagsIf b f) written := by
  obtain ⟨hcontrol, hframe, hbytes⟩ := h
  cases b
  · exact ⟨hcontrol, hframe, hbytes⟩
  · exact ⟨hcontrol, hframe.setCpsr _, hbytes⟩

theorem quiet_setFlags (s : State) (f : Flags) : Quiet s (s.setFlags f) [] :=
  quiet_setFlagsIf (b := true) ⟨sameControl_of_cpsr rfl, Frame.refl s, sameBytes_of_mem rfl⟩ f

theorem x_setFlagsIf (s : State) (b : Bool) (f : Flags) (i : Reg) : (s.setFlagsIf b f).x i = s.x i := by cases b <;> rfl

theorem flags_setFlagsIf (h : t.cpsr = s.cpsr) (b : Bool) (f : Flags) :
    if b = true then FlagsAre (t.setFlagsIf b f) f.n f.z f.c f.v else SameFlags s (t.setFlagsIf b f) := by
  cases b
  · exact sameFlags_of_cpsr h
  · exact ⟨rfl, rfl, rfl, rfl⟩

/-- A result in a register and, when asked for, its flags: the whole effect of most instructions that compute. -/
theorem result_effect (s : State) (rd : Reg) (r : Word) (sb : Bool) (f : Flags) :
    let t := (s.setX rd r).setFlagsIf sb f
    t.x rd = r ∧ (if sb = true then FlagsAre t f.n f.z f.c f.v else SameFlags s t) ∧ Quiet s t [cell s.mode rd] := by
  refine ⟨?_, flags_setFlagsIf rfl sb f, quiet_setFlagsIf (quiet_setX s rd r) sb f⟩
  rw [x_setFlagsIf, State.x_setX, if_pos rfl]

end Sys2Proof.Claims
end

section
/-! ARM data processing (spec/41_arm_data_processing.md R160 to R190). -/

namespace Sys2Proof.Machine

open Sys2Proof.Claims

/-! ## Results in the terms of the statements -/

theorem ofInt_unsigned (a : Word) : BitVec.ofInt 32 (unsigned a) = a := by simp [unsigned]

/-- Sums modulo `2 ^ 32` are those of the integers. -/
theorem ofInt_unsigned_add (a b : Word) : BitVec.ofInt 32 (unsigned a + unsigned b) = a + b := by
  rw [BitVec.ofInt_add, ofInt_unsigned, ofInt_unsigned]

theorem aluAdc_value (a b : Word) (cin : Bool) :
    (aluAdc a b cin).value = BitVec.ofInt 32 (unsigned a + unsigned b + bitValue cin) := by
  rw [← natCast_toNat_eq_bitValue]
  exact (BitVec.ofInt_natCast ..).symm

theorem aluAdc_carry (a b : Word) (cin : Bool) :
    (aluAdc a b cin).carry = decide (2 ^ 32 ≤ unsigned a + unsigned b + bitValue cin) := by
  change decide (2 ^ 32 ≤ a.toNat + b.toNat + cin.toNat) = _
  rw [decide_eq_decide, ← natCast_toNat_eq_bitValue, unsigned, unsigned]
  omega

theorem aluAdd_carry (a b : Word) : (aluAdd a b).carry = decide (2 ^ 32 ≤ unsigned a + unsigned b) := by
  rw [aluAdd_eq_aluAdc, aluAdc_carry]
  simp [bitValue]

/-- N, Z, C and V by the rules of R131. -/
def flagsOf {n : Nat} (r : BitVec n) (c v : Bool) : Flags := { n := negative r, z := isZero r, c := c, v := v }

theorem logicFlags_eq (r : Word) (c v : Bool) : logicFlags r c v = flagsOf r c v := by
  rw [logicFlags, flagsOf, msb_eq_negative, beq_zero_eq_isZero]

theorem mulFlags_eq (r : Word) (v : Bool) : mulFlags r v = flagsOf r false v := logicFlags_eq r false v

theorem mulLongFlags_eq (r : BitVec 64) (v : Bool) : mulLongFlags r v = flagsOf r false v := by
  rw [mulLongFlags, flagsOf, msb_eq_negative, beq_zero_eq_isZero]

theorem arithFlags_eq (r : AluResult) : arithFlags r = flagsOf r.value r.carry r.overflow := logicFlags_eq ..

/-- What an arithmetic opcode answers, given what its adder does. -/
theorem arith_result {r : AluResult} {value : Word} {carry overflow : Bool} (hv : r.value = value) (hc : r.carry = carry)
    (ho : r.overflow = overflow) : (r.value, arithFlags r) = (value, flagsOf value carry overflow) := by
  rw [arithFlags_eq, hv, hc, ho]

/-- Result and flags of every opcode (R163, R170 to R185, R190). -/
theorem dpResult_eq (op : DpOp) (a b : Word) (sc : Bool) (old : Flags) : dpResult op a b sc old =
    (dataValue op a b old.c,
      flagsOf (dataValue op a b old.c) (dataCarry op a b old.c sc) (dataOverflow op a b old.c old.v)) := by
  have logical (r : Word) : (r, logicFlags r sc old.v) = (r, flagsOf r sc old.v) := by rw [logicFlags_eq]
  have add (p q : Word) := arith_result (ofInt_unsigned_add p q).symm (aluAdd_carry p q) (aluAdd_overflow p q)
  have sub (p q : Word) := arith_result (aluSub_value p q) (aluSub_carry p q) (aluSub_overflow p q)
  have sbc (p q : Word) := arith_result (aluSbc_value p q old.c) (aluSbc_carry p q old.c) (aluSbc_overflow p q old.c)
  cases op with
  | and | eor | tst | teq | orr | mov | bic | mvn => exact logical _
  | add | cmn => exact add a b
  | sub | cmp => exact sub a b
  | rsb => exact sub b a
  | adc => exact arith_result (aluAdc_value a b old.c) (aluAdc_carry a b old.c) (aluAdc_overflow a b old.c)
  | sbc => exact sbc a b
  | rsc => exact sbc b a

/-- The result of a data-processing instruction. -/
def State.dataResult (s : State) (op : DpOp) (rn : Reg) (o : Operand2) : Word :=
  dataValue op (s.operand1 o rn) (s.operand2 o).1 s.cpsr.c

/-- The flags it commits when asked to. -/
def State.dataFlags (s : State) (op : DpOp) (rn : Reg) (o : Operand2) : Flags :=
  flagsOf (s.dataResult op rn o) (dataCarry op (s.operand1 o rn) (s.operand2 o).1 s.cpsr.c (s.operand2 o).2)
    (dataOverflow op (s.operand1 o rn) (s.operand2 o).1 s.cpsr.c s.cpsr.v)

theorem State.dataProcessing_of_ne {s : State} {rd : Reg} (h : rd ≠ 15) (op : DpOp) (sb : Bool) (rn : Reg) (o : Operand2) :
    s.dataProcessing op sb rn rd o =
      .next ((if op.writes then s.setX rd (s.dataResult op rn o) else s).setFlagsIf sb (s.dataFlags op rn o)) := by
  simp only [State.dataProcessing, if_neg h, dpResult_eq]
  rfl

/-- What a result for r15 commits: a branch, where the opcode writes (R162, R165). -/
def State.commitPc (op : DpOp) (r : Word) (t : State) : State := if op.writes then t.branchTo r else t

theorem State.dataProcessing_pc (s : State) (op : DpOp) (sb : Bool) (rn : Reg) (o : Operand2) :
    s.dataProcessing op sb rn 15 o = if sb then s.afterRestore (State.commitPc op (s.dataResult op rn o))
      else .next (State.commitPc op (s.dataResult op rn o) s) := by
  simp only [State.dataProcessing, if_true, dpResult_eq]
  rfl

/-! ## The statements -/

/-- Settles O30: `State.dataProcessing_of_ne` is a result with flags. -/
theorem dataResult : Obligations.DataResult := by
  intro s op c sb rn rd o hw hrd hc a b r
  refine ⟨_, ?_, result_effect s rd r sb (s.dataFlags op rn o)⟩
  rw [exec_dataInstr, State.ifCond_pass hc, State.dataProcessing_of_ne hrd, hw, Bool.not_true, Bool.or_false, if_pos rfl]
  rfl

/-- Settles O31: the flags alone. -/
theorem dataTests : Obligations.DataTests := by
  intro s op c sb rn rd o hw hrd hc a b r
  refine ⟨s.setFlags (s.dataFlags op rn o), ?_, ⟨rfl, rfl, rfl, rfl⟩, quiet_setFlags s _⟩
  rw [exec_dataInstr, State.ifCond_pass hc, State.dataProcessing_of_ne hrd, hw, Bool.not_false, Bool.or_true,
    if_neg Bool.false_ne_true]
  rfl

/-- Settles O32: in ARM state the branch is to the word below. -/
theorem dataWritesPc : Obligations.DataWritesPc := by
  intro s op c rn o hw ht hc
  refine ⟨s.branchTo (s.dataResult op rn o), ?_, State.pc_branchTo_arm ht _, sameFlags_of_cpsr rfl, sameControl_of_cpsr rfl,
    (Frame.refl s).branchTo _, sameBytes_of_mem rfl⟩
  rw [exec_dataInstr, State.ifCond_pass hc, State.dataProcessing_pc, hw, Bool.not_true, Bool.or_false,
    if_neg Bool.false_ne_true, State.commitPc, if_pos hw]

theorem State.afterRestore_of_restorable {s : State} (h : Restorable s) (k : State → State) :
    ∃ p : Cpsr, s.afterRestore k = .next (k { s with cpsr := p }) ∧ RestoredCpsr s { s with cpsr := p } := by
  obtain ⟨p, hp, hrestored⟩ := State.restoreCpsr_of_restorable h
  exact ⟨p, by rw [State.afterRestore, hp], hrestored⟩

theorem State.afterRestore_of_not_restorable {s : State} (h : ¬Restorable s) (k : State → State) :
    s.afterRestore k = .refused .unrecognisedMode := by
  rw [State.afterRestore, State.restoreCpsr_of_not_restorable h]

theorem exec_dataInstr_return {s : State} {c : Cond} (hc : Passes c s) (op : DpOp) (rn : Reg) (o : Operand2) :
    exec (dataInstr op c true rn 15 o) s = s.afterRestore (State.commitPc op (s.dataResult op rn o)) := by
  rw [exec_dataInstr, State.ifCond_pass hc, State.dataProcessing_pc, Bool.true_or, if_pos rfl]

/-- Settles O33: the restore first, so that the branch of a writing opcode is aligned by the restored T. -/
theorem dataReturns : Obligations.DataReturns := by
  intro s op c rn o hc r
  refine ⟨fun h => ?restored, fun h => (exec_dataInstr_return hc op rn o).trans (State.afterRestore_of_not_restorable h _)⟩
  case restored =>
    obtain ⟨p, hp, hrestored⟩ := State.afterRestore_of_restorable h (State.commitPc op (s.dataResult op rn o))
    refine ⟨_, (exec_dataInstr_return hc op rn o).trans hp, ?_⟩
    have hframe : Frame s { s with cpsr := p } [] [] false := (Frame.refl s).setCpsr p
    cases hw : op.writes with
    | true =>
      rw [State.commitPc, if_pos hw]
      exact ⟨hrestored, fun _ => State.pc_branchTo _ _, fun h => (by cases h), hframe.branchTo _, sameBytes_of_mem rfl⟩
    | false =>
      rw [State.commitPc, if_neg (Bool.eq_false_iff.1 hw)]
      exact ⟨hrestored, fun h => (by cases h), fun _ => rfl, hframe.mono (List.nil_subset _), sameBytes_of_mem rfl⟩

end Sys2Proof.Machine
end

section
/-! ARM multiply (spec/42_arm_multiply.md R200 to R210). -/

namespace Sys2Proof.Machine

open Sys2Proof.Claims

theorem mul_eq_ofNat (a b : Word) : a * b = BitVec.ofNat 32 (a.toNat * b.toNat) := by
  rw [BitVec.ofNat_mul, BitVec.ofNat_toNat, BitVec.ofNat_toNat, BitVec.setWidth_eq, BitVec.setWidth_eq]

theorem mul_add_eq_ofNat (a b d : Word) : a * b + d = BitVec.ofNat 32 (a.toNat * b.toNat + d.toNat) := by
  rw [BitVec.ofNat_add, ← mul_eq_ofNat, BitVec.ofNat_toNat, BitVec.setWidth_eq]

/-- A short multiply's whole effect (R201). -/
theorem multiply_answers {s : State} {i : Instr} {sb : Bool} {rd : Reg} {r : Word} (h : exec i s = s.multiply sb rd r) :
    Answers i s fun t => t.x rd = r ∧
      (if sb = true then FlagsAre t (negative r) (isZero r) false s.cpsr.v else SameFlags s t) ∧
      Quiet s t [cell s.mode rd] := by
  rw [State.multiply, mulFlags_eq] at h
  exact ⟨_, h, result_effect s rd r sb (flagsOf r false s.cpsr.v)⟩

/-- Settles O34: the operands are within R202, so both forms are `State.multiply`. -/
theorem multiplyShort : Obligations.MultiplyShort := by
  intro s c sb rd rn rs rm hd hs hm hdm hc effect
  have hallowed : mulForbidden rd rs rm = false := by simp [mulForbidden, hd, hs, hm, hdm]
  refine ⟨multiply_answers ?_, fun hn => multiply_answers ?_⟩
  · rw [← mul_eq_ofNat]
    refine (State.ifCond_pass hc _).trans (if_neg ?_)
    rw [hallowed]
    exact Bool.false_ne_true
  · rw [← mul_add_eq_ofNat]
    refine (State.ifCond_pass hc _).trans (if_neg ?_)
    simp [hallowed, hn]

/-! ## Long multiplies -/

theorem unsignedProduct_eq_ofInt (a b : Word) : unsignedProduct a b = BitVec.ofInt 64 (unsigned a * unsigned b) := by
  rw [BitVec.ofInt_mul]
  simp [unsignedProduct, unsigned, BitVec.ofNat_toNat]

theorem signedProduct_eq_ofInt (a b : Word) : signedProduct a b = BitVec.ofInt 64 (a.toInt * b.toInt) := by
  rw [BitVec.ofInt_mul]
  rfl

/-- The accumulated pair as a number (R206, R208). -/
theorem append_eq_ofInt (hi lo : Word) : hi ++ lo = BitVec.ofInt 64 (unsigned hi * 2 ^ 32 + unsigned lo) := by
  have hn : (hi ++ lo).toNat = hi.toNat * 2 ^ 32 + lo.toNat := by
    rw [BitVec.toNat_append, ← Nat.shiftLeft_add_eq_or_of_lt lo.isLt, Nat.shiftLeft_eq]
  have hi' : unsigned hi * 2 ^ 32 + unsigned lo = ((hi ++ lo).toNat : Int) := by
    rw [hn]
    push_cast
    rfl
  rw [hi', BitVec.ofInt_natCast]
  apply BitVec.eq_of_toNat_eq
  rw [BitVec.toNat_ofNat]
  exact (Nat.mod_eq_of_lt (hi ++ lo).isLt).symm

/-- A long multiply's whole effect (R200, R201). -/
theorem multiplyLong_answers {s : State} {i : Instr} {sb : Bool} {rdHi rdLo : Reg} {r : BitVec 64} (hne : rdHi ≠ rdLo)
    (h : exec i s = s.multiplyLong sb rdHi rdLo r) :
    Answers i s fun t => t.x rdHi ++ t.x rdLo = r ∧
      (if sb = true then FlagsAre t (negative r) (isZero r) false s.cpsr.v else SameFlags s t) ∧
      Quiet s t [cell s.mode rdHi, cell s.mode rdLo] := by
  rw [State.multiplyLong, mulLongFlags_eq] at h
  refine ⟨_, h, ?_, flags_setFlagsIf rfl sb (flagsOf r false s.cpsr.v), quiet_setFlagsIf ?_ sb _⟩
  · simp only [x_setFlagsIf, State.x_setX, if_true, if_neg hne.symm]
    exact (field_append_field r 0 32 32).trans (field_all r)
  · exact ⟨sameControl_of_cpsr rfl, ((Frame.refl s).setX rdLo _).setX rdHi _, sameBytes_of_mem rfl⟩

/-- Products and sums modulo `2 ^ 64` are those of the integers (R205 to R209). -/
theorem ofInt_longProduct (sgn acc : Bool) (m n hi lo : Word) : BitVec.ofInt 64 (longProduct sgn acc m n hi lo) =
    (if sgn then signedProduct m n else unsignedProduct m n) + (if acc then hi ++ lo else 0) := by
  rw [longProduct, BitVec.ofInt_add]
  congr 1
  · cases sgn
    · exact (unsignedProduct_eq_ofInt m n).symm
    · exact (signedProduct_eq_ofInt m n).symm
  · cases acc
    · rfl
    · exact (append_eq_ofInt hi lo).symm

theorem exec_longInstr (sgn acc : Bool) (c : Cond) (sb : Bool) (rdHi rdLo rs rm : Reg) (s : State) :
    exec (longInstr sgn acc c sb rdHi rdLo rs rm) s = s.ifCond c (if mulLongForbidden rdHi rdLo rs rm
      then .refused .restrictedMultiply
      else s.multiplyLong sb rdHi rdLo
        (BitVec.ofInt 64 (longProduct sgn acc (s.x rm) (s.x rs) (s.x rdHi) (s.x rdLo)))) := by
  rw [ofInt_longProduct]
  cases sgn <;> cases acc <;> simp only [Bool.false_eq_true, if_true, if_false, add_zero] <;> rfl

/-- Settles O35: each form is `State.multiplyLong` of its product. -/
theorem multiplyLong : Obligations.MultiplyLong := by
  intro s sgn acc c sb rdHi rdLo rs rm hh hl hs hm hhl hhm hlm hc r
  have hallowed : ¬mulLongForbidden rdHi rdLo rs rm = true := by
    simp [mulLongForbidden, hh, hl, hs, hm, hhl, hhm, hlm]
  refine multiplyLong_answers hhl ?_
  rw [exec_longInstr, State.ifCond_pass hc, if_neg hallowed]

end Sys2Proof.Machine
end

section
/-! ARM PSR transfer (spec/43_arm_psr_transfer.md R220 to R233). -/

namespace Sys2Proof.Machine

open Sys2Proof.Claims

/-! ## MRS -/

theorem exec_mrs {s : State} {c : Cond} (hc : Passes c s) (ps : Bool) {rd : Reg} (hrd : rd ≠ 15) :
    exec (.mrs c ps rd) s = .next (s.setX rd (s.readPsr ps).toWord) :=
  (State.ifCond_pass hc _).trans (if_neg hrd)

/-- In a mode without an SPSR, MRS reads the CPSR (R35, R221). -/
theorem State.readPsr_eq_cpsr {s : State} {ps : Bool} (h : ps = false ∨ s.cpsr.m = .user ∨ s.cpsr.m = .system) :
    s.readPsr ps = s.cpsr.toSpsr := by
  have hnone (hm : s.cpsr.m = .user ∨ s.cpsr.m = .system) : (s.spsrs.get? s.mode).getD s.cpsr.toSpsr = s.cpsr.toSpsr := by
    rcases hm with hm | hm <;> rw [State.mode, hm] <;> rfl
  rcases h with rfl | hm
  · rfl
  · rw [State.readPsr, hnone hm, ite_self]

/-- The number in the low five bits of a PSR's word. -/
theorem Psr.toNat_toWord_mod (p : Spsr) : p.toWord.toNat % 32 = p.m.toNat := by
  have hm : p.toWord.extractLsb' 0 5 = p.m := congrArg Psr.m p.ofWord_toWord
  rw [← hm, BitVec.extractLsb'_toNat, Nat.shiftRight_zero]

theorem Psr.extractLsb'_toWord (p : Spsr) : p.toWord.extractLsb' 8 20 = 0 := by
  apply BitVec.eq_of_getLsbD_eq
  intro k hk
  rw [BitVec.getLsbD_extractLsb', Psr.getLsbD_toWord _ (by omega)]
  simp [show ¬8 + k < 5 by omega, show ¬8 + k = 5 by omega, show ¬8 + k = 6 by omega, show ¬8 + k = 7 by omega,
    show 8 + k < 28 by omega]

/-- Settles O36: the word's fields are the PSR's (`Psr.ofWord_toWord`). -/
theorem mrsReads : Obligations.MrsReads := by
  intro s c ps rd p hrd hc hp
  have hread : s.readPsr ps = p := hp.symm
  refine ⟨_, exec_mrs hc ps hrd, ?_⟩
  have hx : (s.setX rd (s.readPsr ps).toWord).x rd = p.toWord := by rw [State.x_setX, if_pos rfl, hread]
  obtain ⟨hn, hz, hcy, hv, hi, hf, ht, hm⟩ := Psr.mk.inj p.ofWord_toWord
  beta_reduce
  rw [hx]
  refine ⟨hn, hz, hcy, hv, p.extractLsb'_toWord, hi, hf, ht, hm, fun hmode => ?_, sameFlags_of_cpsr rfl, quiet_setX s rd _⟩
  rw [p.toNat_toWord_mod, ← hread, State.readPsr_eq_cpsr hmode]
  exact Mode.toNat_bits _

/-! ## MSR -/

theorem exec_msrReg {s : State} {c : Cond} (hc : Passes c s) (ps : Bool) (mask : BitVec 4) {rm : Reg} (hrm : rm ≠ 15) :
    exec (.msrReg c ps mask rm) s = s.writePsr ps mask (s.x rm) :=
  (State.ifCond_pass hc _).trans (if_neg hrm)

theorem exec_msrImm {s : State} {c : Cond} (hc : Passes c s) (ps : Bool) (mask rot : BitVec 4) (imm8 : BitVec 8) :
    exec (.msrImm c ps mask rot imm8) s = s.writePsr ps mask (rotatedImm rot imm8) := State.ifCond_pass hc _

/-- What an MSR of the CPSR puts together. -/
def State.mergedCpsr (s : State) (mask : BitVec 4) (v : Word) : Spsr :=
  psrMerge s.cpsr.toSpsr (s.psrEffective false mask) v

/-- The control byte is written in privileged modes only (R37, R223). -/
def WritesControl (s : State) (mask : BitVec 4) : Prop := mask.getLsbD 0 = true ∧ s.cpsr.m ≠ .user

theorem writesControl_iff (s : State) (mask : BitVec 4) :
    (mask.getLsbD 0 = true ∧ (s.cpsr.m = .user → false = true)) ↔ WritesControl s mask := by
  simp [WritesControl]

/-- Every field of what an MSR of the CPSR puts together, by the two bytes of the mask. -/
theorem State.mergedCpsr_fields (s : State) (mask : BitVec 4) (v : Word) :
    let p := s.mergedCpsr mask v
    (mask.getLsbD 3 = true → p.n = v.getLsbD 31 ∧ p.z = v.getLsbD 30 ∧ p.c = v.getLsbD 29 ∧ p.v = v.getLsbD 28) ∧
    (mask.getLsbD 3 = false → p.n = s.cpsr.n ∧ p.z = s.cpsr.z ∧ p.c = s.cpsr.c ∧ p.v = s.cpsr.v) ∧
    (WritesControl s mask → p.i = v.getLsbD 7 ∧ p.f = v.getLsbD 6 ∧ p.t = v.getLsbD 5 ∧ p.m = v.extractLsb' 0 5) ∧
    (¬WritesControl s mask → p.i = s.cpsr.i ∧ p.f = s.cpsr.f ∧ p.t = s.cpsr.t ∧ p.m = s.cpsr.m.bits) := by
  simp only [State.mergedCpsr, psrMerge_psrEffective]
  refine ⟨fun h => ⟨if_pos h, if_pos h, if_pos h, if_pos h⟩, fun h => ?_, fun hw => ?_, fun hw => ?_⟩
  · have h' := Bool.eq_false_iff.1 h
    exact ⟨if_neg h', if_neg h', if_neg h', if_neg h'⟩
  · have h := (writesControl_iff s mask).2 hw
    exact ⟨if_pos h, if_pos h, if_pos h, if_pos h⟩
  · have h := mt (writesControl_iff s mask).1 hw
    exact ⟨if_neg h, if_neg h, if_neg h, if_neg h⟩

theorem toNat_extractLsb'_five (v : Word) : (v.extractLsb' 0 5).toNat = v.toNat % 32 := by
  rw [BitVec.extractLsb'_toNat, Nat.shiftRight_zero]

/-- An MSR of the CPSR is allowed exactly when what it puts together holds a recognised mode (R229). -/
theorem msrAllowed_iff (s : State) (mask : BitVec 4) (v : Word) :
    MsrAllowed s false mask v ↔ (s.mergedCpsr mask v).m.toNat ∈ modeNumbers := by
  obtain ⟨-, -, hcontrol, hkeep⟩ := s.mergedCpsr_fields mask v
  by_cases hw : WritesControl s mask
  · obtain ⟨hmask, hmode⟩ := hw
    obtain ⟨-, -, -, hm⟩ := hcontrol ⟨hmask, hmode⟩
    simp [MsrAllowed, hm, hmask, hmode]
  · obtain ⟨-, -, -, hm⟩ := hkeep hw
    have hmode : modeNumber s.cpsr.m ∈ modeNumbers := by cases s.cpsr.m <;> decide
    have hallowed : s.cpsr.m = .user ∨ mask.getLsbD 0 = false := by
      simp only [WritesControl, not_and, not_not] at hw
      cases hmask : mask.getLsbD 0
      · exact .inr rfl
      · exact .inl (hw hmask)
    rw [hm, Mode.toNat_bits]
    refine iff_of_true ?_ hmode
    rcases hallowed with h | h
    · exact .inl h
    · exact .inr (.inl h)

theorem State.writePsr_cpsr_of_allowed {s : State} {mask : BitVec 4} {v : Word} (h : MsrAllowed s false mask v) :
    ∃ p : Cpsr, s.writePsr false mask v = .next { s with cpsr := p } ∧ p.toSpsr = s.mergedCpsr mask v := by
  have hsome := (Mode.ofBits_isSome_iff _).2 ((msrAllowed_iff s mask v).1 h)
  cases hp : (s.mergedCpsr mask v).toCpsr? with
  | none =>
    rw [Psr.toCpsr?_eq_none] at hp
    rw [hp] at hsome
    cases hsome
  | some p =>
    refine ⟨p, ?_, Psr.toSpsr_of_toCpsr? hp⟩
    rw [State.mergedCpsr] at hp
    simp only [State.writePsr, Bool.false_eq_true, if_false, hp]

theorem State.writePsr_cpsr_of_not_allowed {s : State} {mask : BitVec 4} {v : Word} (h : ¬MsrAllowed s false mask v) :
    s.writePsr false mask v = .refused .unrecognisedMode := by
  rw [msrAllowed_iff, ← Mode.ofBits_isSome_iff, Option.not_isSome_iff_eq_none, ← Psr.toCpsr?_eq_none,
    State.mergedCpsr] at h
  simp only [State.writePsr, Bool.false_eq_true, if_false, h]

/-- Settles O37: both operand forms are `State.writePsr`, and the fields are those of `State.mergedCpsr_fields`. -/
theorem msrWritesCpsr : Obligations.MsrWritesCpsr := by
  intro s c mask rot imm8 rm hc control effect both
  have main (v : Word) (i : Instr) (hexec : exec i s = s.writePsr false mask v) : both v i := by
    refine ⟨fun h => ?_, fun h => hexec.trans (State.writePsr_cpsr_of_not_allowed h)⟩
    obtain ⟨p, hp, hmerged⟩ := State.writePsr_cpsr_of_allowed h
    obtain ⟨hflags, hkeepFlags, hcontrol, hkeepControl⟩ := s.mergedCpsr_fields mask v
    rw [← hmerged] at hflags hkeepFlags hcontrol hkeepControl
    refine ⟨_, hexec.trans hp, hflags, hkeepFlags, fun hw => ?_, fun hw => ?_, (Frame.refl s).setCpsr p,
      sameBytes_of_mem rfl⟩
    · obtain ⟨hi, hf, ht, hm⟩ := hcontrol hw
      exact ⟨hi, hf, ht, by rw [← Mode.toNat_bits, ← toNat_extractLsb'_five]; exact congrArg BitVec.toNat hm⟩
    · obtain ⟨hi, hf, ht, hm⟩ := hkeepControl hw
      have hmode : Mode.ofBits p.m.bits = Mode.ofBits s.cpsr.m.bits := congrArg Mode.ofBits hm
      rw [Mode.ofBits_bits, Mode.ofBits_bits] at hmode
      exact ⟨hi, hf, ht, Option.some.inj hmode⟩
  exact ⟨fun hrm => main _ _ (exec_msrReg hc false mask hrm), main _ _ (exec_msrImm hc false mask rot imm8)⟩

theorem Spsrs.get?_eq_none_iff (p : Spsrs) (m : Mode) : p.get? m = none ↔ m = .user ∨ m = .system := by
  cases m <;> simp [Spsrs.get?]

theorem hasSpsr_of_get? {p : Spsrs} {m : Mode} {v : Spsr} (h : p.get? m = some v) : m.hasSpsr = true := by
  cases m <;> first | rfl | cases h

theorem State.writePsr_spsr {s : State} {old : Spsr} (h : s.spsrs.get? s.cpsr.m = some old) (mask : BitVec 4) (v : Word) :
    s.writePsr true mask v =
      .next { s with spsrs := s.spsrs.put s.cpsr.m (psrMerge old (s.psrEffective true mask) v) } := by
  simp only [State.writePsr, if_true, State.mode, h]

theorem State.writePsr_no_spsr {s : State} (h : s.cpsr.m = .user ∨ s.cpsr.m = .system) (mask : BitVec 4) (v : Word) :
    s.writePsr true mask v = .refused .noSpsrToWrite := by
  simp only [State.writePsr, if_true, State.mode, (Spsrs.get?_eq_none_iff s.spsrs _).2 h]

/-- Settles O38: the same for the SPSR, which may hold any mode value. -/
theorem msrWritesSpsr : Obligations.MsrWritesSpsr := by
  intro s c mask rot imm8 rm hc effect both
  have main (v : Word) (i : Instr) (hexec : exec i s = s.writePsr true mask v) : both v i := by
    refine ⟨fun old hold => ?_, fun h => hexec.trans (State.writePsr_no_spsr h mask v)⟩
    refine ⟨_, hexec.trans (State.writePsr_spsr hold mask v), _, Spsrs.get?_put_self _ (hasSpsr_of_get? hold) _, ?_, ?_,
      fun m hm => Spsrs.get?_put_ne _ hm _, rfl, rfl, rfl, rfl, rfl, rfl, rfl⟩
    · rw [psrMerge_psrEffective]
      cases mask.getLsbD 3 <;> simp
    · rw [psrMerge_psrEffective]
      cases mask.getLsbD 0 <;> simp
  exact ⟨fun hrm => main _ _ (exec_msrReg hc true mask hrm), main _ _ (exec_msrImm hc true mask rot imm8)⟩

/-- Merging a PSR's own word changes nothing, whatever the mask (R233). -/
theorem psrMerge_self (p : Spsr) (effective : Word) : psrMerge p effective p.toWord = p := by
  have hw : (p.toWord &&& ~~~effective) ||| (p.toWord &&& effective) = p.toWord := by
    ext k hk
    simp only [BitVec.getElem_or, BitVec.getElem_and, BitVec.getElem_not]
    cases p.toWord[k] <;> cases effective[k] <;> rfl
  rw [psrMerge, hw, Psr.ofWord_toWord]

theorem passes_al (s : State) : Passes .al s := rfl

/-- Settles O39: the MSR merges the CPSR's own word into the CPSR (`psrMerge_self`). -/
theorem mrsMsrRoundTrip : Obligations.MrsMsrRoundTrip := by
  intro s rd hrd
  refine ⟨_, exec_mrs (passes_al s) false hrd, fun t' hcpsr hx => ?_⟩
  have hcpsr : t'.cpsr = s.cpsr := hcpsr
  have hx : t'.x rd = t'.cpsr.toSpsr.toWord := by
    rw [hx, State.x_setX, if_pos rfl, hcpsr]
    rfl
  refine ⟨t', ?_, hcpsr⟩
  rw [exec_msrReg (passes_al t') false _ hrd, hx]
  simp only [State.writePsr, Bool.false_eq_true, if_false, psrMerge_self, Psr.toCpsr?_toSpsr]

end Sys2Proof.Machine
end

section
/-! Which instructions are refused and which complete (spec/92_eei_decisions.md D19, D21, D31): one verdict per shared
operation, then one per instruction. -/

namespace Sys2Proof.Machine

open Sys2Proof.Claims

/-- What is due to an instruction whose condition holds: with a defect it is refused by the defect's name, without one it
answers a next state wherever the state allows it. -/
structure Verdict (defect : Option Defect) (allowed : Prop) (a : Answer) : Prop where
  refuses : ∀ d, defect = some d → a = .refused (refusalOf d)
  completes : defect = none → allowed → ∃ t, a = .next t

variable {s : State} {allowed : Prop} {a : Answer} {c : Cond}

theorem Verdict.of_completes (h : allowed → ∃ t, a = .next t) : Verdict none allowed a :=
  ⟨fun _ hd => (nomatch hd), fun _ => h⟩

theorem Verdict.next (t : State) : Verdict none allowed (.next t) := .of_completes fun _ => ⟨t, rfl⟩

theorem Verdict.ifCond {defect : Option Defect} (h : Verdict defect allowed a) (hc : Passes c s) :
    Verdict defect allowed (s.ifCond c a) := by
  rw [State.ifCond_pass hc]
  exact h

/-- A test that comes before others (D31). -/
theorem Verdict.first {defect : Option Defect} {b : Bool} {d : Defect} (hb : b = true → a = .refused (refusalOf d))
    (h : b = false → Verdict defect allowed a) : Verdict (Defect.first (defectIf b d) defect) allowed a := by
  cases b with
  | true =>
    refine ⟨fun d' hd => ?_, fun hd => by cases hd⟩
    cases hd
    exact hb rfl
  | false => exact h rfl

theorem Verdict.defectIf {b : Bool} {d : Defect} (hb : b = true → a = .refused (refusalOf d))
    (h : b = false → allowed → ∃ t, a = .next t) : Verdict (defectIf b d) allowed a := by
  have hfirst := Verdict.first (defect := none) hb fun hf => .of_completes (h hf)
  cases b <;> exact hfirst

/-- A test in the model that is the defect's. -/
theorem verdict_ite {b b' : Bool} {d : Defect} {t : State} (h : b = b') :
    Verdict (defectIf b d) allowed (if b' then .refused (refusalOf d) else .next t) := by
  subst h
  exact Verdict.defectIf (fun hb => if_pos hb) fun hb _ => ⟨t, if_neg (Bool.eq_false_iff.1 hb)⟩

/-! ## Data processing and multiply -/

theorem dataInstr_of_not_writes {op : DpOp} (h : op.writes = false) (c : Cond) (sb sb' : Bool) (rn rd : Reg) (o : Operand2) :
    dataInstr op c sb rn rd o = dataInstr op c sb' rn rd o := by
  cases op with
  | tst => cases o <;> rfl
  | teq => cases o <;> rfl
  | cmp => cases o <;> rfl
  | cmn => cases o <;> rfl
  | _ => cases h

theorem State.dataProcessing_completes {op : DpOp} {sb : Bool} {rn rd : Reg} {o : Operand2}
    (h : sb = true → rd = 15 → Restorable s) : ∃ t, s.dataProcessing op sb rn rd o = .next t := by
  by_cases hrd : rd = 15
  · subst hrd
    rw [State.dataProcessing_pc]
    cases sb with
    | false => exact ⟨_, rfl⟩
    | true =>
      obtain ⟨p, hp, -⟩ := State.afterRestore_of_restorable (h rfl rfl) (State.commitPc op (s.dataResult op rn o))
      exact ⟨_, hp⟩
  · exact ⟨_, State.dataProcessing_of_ne hrd op sb rn o⟩

theorem verdict_dataInstr (hc : Passes c s) (op : DpOp) (sb : Bool) (rn rd : Reg) (o : Operand2) :
    Verdict none (StateAllows (dataInstr op c sb rn rd o) s) (exec (dataInstr op c sb rn rd o) s) := by
  refine .of_completes fun ⟨_, _, _, hreturn⟩ => ?_
  rw [exec_dataInstr, State.ifCond_pass hc]
  refine State.dataProcessing_completes fun hsb hrd => hreturn op c rn rd o ?_ hrd
  cases hw : op.writes with
  | true => rw [show sb = true by simpa [hw] using hsb]
  | false => exact dataInstr_of_not_writes hw c sb true rn rd o

theorem verdict_mul (rd rs rm : Reg) (sb : Bool) (r : Word) : Verdict (mulDefect rd rs rm none) allowed
    (if mulForbidden rd rs rm then .refused .restrictedMultiply else s.multiply sb rd r) :=
  verdict_ite (by simp [mulForbidden])

theorem verdict_mla (rd rs rm rn : Reg) (sb : Bool) (r : Word) : Verdict (mulDefect rd rs rm (some rn)) allowed
    (if mulForbidden rd rs rm || rn == 15 then .refused .restrictedMultiply else s.multiply sb rd r) :=
  verdict_ite rfl

theorem verdict_long (rdHi rdLo rs rm : Reg) (sb : Bool) (r : BitVec 64) : Verdict (mulLongDefect rdHi rdLo rs rm) allowed
    (if mulLongForbidden rdHi rdLo rs rm then .refused .restrictedMultiply else s.multiplyLong sb rdHi rdLo r) :=
  verdict_ite rfl

/-! ## PSR transfer -/

theorem verdict_mrs (rd : Reg) (v : Word) : Verdict (defectIf (rd == 15) .forbiddenR15) allowed
    (if rd = 15 then .refused .forbiddenR15 else .next (s.setX rd v)) :=
  Verdict.defectIf (fun h => if_pos (beq_iff_eq.1 h)) fun h _ => ⟨_, if_neg (beq_eq_false_iff_ne.1 h)⟩

theorem State.writePsr_completes {spsr : Bool} {mask : BitVec 4} {v : Word} (h : MsrAllowed s spsr mask v) :
    ∃ t, s.writePsr spsr mask v = .next t := by
  cases spsr with
  | false =>
    obtain ⟨p, hp, -⟩ := State.writePsr_cpsr_of_allowed h
    exact ⟨_, hp⟩
  | true =>
    obtain ⟨hu, hs⟩ : s.cpsr.m ≠ .user ∧ s.cpsr.m ≠ .system := h
    cases hold : s.spsrs.get? s.cpsr.m with
    | none => exact absurd ((Spsrs.get?_eq_none_iff _ _).1 hold) (not_or.2 ⟨hu, hs⟩)
    | some old => exact ⟨_, State.writePsr_spsr hold mask v⟩

theorem verdict_writePsr {spsr : Bool} {mask : BitVec 4} {v : Word} (h : allowed → MsrAllowed s spsr mask v) :
    Verdict none allowed (s.writePsr spsr mask v) := .of_completes fun ha => State.writePsr_completes (h ha)

theorem verdict_msrReg {spsr : Bool} {mask : BitVec 4} {rm : Reg} {v : Word} (h : allowed → MsrAllowed s spsr mask v) :
    Verdict (defectIf (rm == 15) .forbiddenR15) allowed
      (if rm = 15 then .refused .forbiddenR15 else s.writePsr spsr mask v) := by
  refine Verdict.defectIf (fun hrm => if_pos (beq_iff_eq.1 hrm)) fun hrm ha => ?_
  rw [if_neg (beq_eq_false_iff_ne.1 hrm)]
  exact State.writePsr_completes (h ha)

/-! ## Single, halfword and swap transfers -/

/-- The register an offset names. -/
def Offset.register? : Offset → Option Reg
  | .imm12 _ => none
  | .imm8 _ => none
  | .shifted _ _ rm => some rm
  | .plain rm => some rm

theorem Offset.usesR15_eq (o : Offset) : o.usesR15 = (o.register? == some 15) := by cases o <;> rfl

theorem verdict_singleLoad (k : LoadKind) (ix : Indexing) (rn rd : Reg) (o : Offset) :
    Verdict (singleDefect ix.writesBack rn o.register?) allowed (s.singleLoad k ix rn rd o) :=
  verdict_ite (by rw [transferForbidden, o.usesR15_eq])

theorem verdict_singleStore (w : Width) (ix : Indexing) (rn rd : Reg) (o : Offset) :
    Verdict (singleDefect ix.writesBack rn o.register?) allowed (s.singleStore w ix rn rd o) :=
  verdict_ite (by rw [transferForbidden, o.usesR15_eq])

theorem verdict_halfLoad (k : LoadKind) (ix : Indexing) (rn rd : Reg) (o : Offset) :
    Verdict (halfDefect true ix.pre ix.w rn rd o.register?) allowed (s.halfLoad k ix rn rd o) := by
  refine Verdict.first (fun h => if_pos h) fun h => ?_
  rw [State.halfLoad, if_neg (Bool.eq_false_iff.1 h)]
  exact verdict_ite (by rw [transferForbidden, o.usesR15_eq, Bool.true_and]; rfl)

theorem verdict_halfStore (ix : Indexing) (rn rd : Reg) (o : Offset) :
    Verdict (halfDefect false ix.pre ix.w rn rd o.register?) allowed (s.halfStore ix rn rd o) := by
  refine Verdict.first (fun h => if_pos h) fun h => ?_
  rw [State.halfStore, if_neg (Bool.eq_false_iff.1 h)]
  exact verdict_ite (by rw [transferForbidden, o.usesR15_eq, Bool.false_and, Bool.or_false]; rfl)

theorem verdict_swap (w : Width) (rn rd rm : Reg) : Verdict (swapDefect rn rd rm) allowed (s.swap w rn rd rm) :=
  verdict_ite rfl

/-! ## Block transfers -/

theorem blockRefusal_eq_none {rn : Reg} {list : BitVec 16} (hl : list ≠ 0) (hr : rn ≠ 15) : blockRefusal rn list = none := by
  rw [blockRefusal, if_neg hl, if_neg hr]

/-- The verdict of a block transfer that refuses what `blockRefusal` says (R290, R291). -/
theorem verdict_block {empty userWriteback : Bool} {rn : Reg} {list : BitVec 16} (hempty : (list == 0) = empty)
    (hrefused : ∀ why, blockRefusal rn list = some why → a = .refused why)
    (h : blockRefusal rn list = none → Verdict (defectIf userWriteback .userBankWriteback) allowed a) :
    Verdict (blockDefect empty userWriteback rn) allowed a := by
  subst hempty
  refine Verdict.first (fun hl => hrefused _ ?_) fun hl => Verdict.first (fun hr => hrefused _ ?_) fun hr => h ?_
  · rw [blockRefusal, if_pos (beq_iff_eq.1 hl)]
    rfl
  · rw [blockRefusal, if_neg (beq_eq_false_iff_ne.1 hl), if_pos (beq_iff_eq.1 hr)]
    rfl
  · exact blockRefusal_eq_none (beq_eq_false_iff_ne.1 hl) (beq_eq_false_iff_ne.1 hr)

/-- The same for the THUMB forms, whose base is never r15. -/
theorem verdict_thumbBlock {empty : Bool} {rn : Reg} {list : BitVec 16} (hr : rn ≠ 15) (hempty : (list == 0) = empty)
    (h : Verdict (blockDefect empty false rn) allowed a) : Verdict (defectIf empty .emptyRegisterList) allowed a := by
  rw [blockDefect, beq_eq_false_iff_ne.2 hr] at h
  cases empty <;> exact h

/-- LDM (S = 0) where nothing refuses it: the effects, then the branch when r15 is listed. -/
theorem State.blockLoad_of_allowed {rn : Reg} {list : BitVec 16} (h : blockRefusal rn list = none) (b : BlockMode) (w : Bool) :
    s.blockLoad b w rn list = .next ((s.doBlockLoad b w rn s.mode list).2.elim (s.doBlockLoad b w rn s.mode list).1
      (s.doBlockLoad b w rn s.mode list).1.branchTo) := by
  rw [State.blockLoad, h]
  obtain ⟨t, v⟩ := s.doBlockLoad b w rn s.mode list
  cases v <;> rfl

theorem verdict_blockLoad (b : BlockMode) (w : Bool) (rn : Reg) (list : BitVec 16) :
    Verdict (blockDefect (list == 0) false rn) allowed (s.blockLoad b w rn list) :=
  verdict_block rfl (fun why h => by rw [State.blockLoad, h]) fun h => by
    rw [State.blockLoad_of_allowed h]
    exact Verdict.next _

theorem verdict_blockStore (b : BlockMode) (w : Bool) (rn : Reg) (list : BitVec 16) :
    Verdict (blockDefect (list == 0) false rn) allowed (s.blockStore b w rn list) :=
  verdict_block rfl (fun why h => by rw [State.blockStore, h]) fun h => by
    rw [State.blockStore, h]
    exact Verdict.next _

/-- An all-zero field in front adds no register. -/
theorem zero_append_beq_zero (list : BitVec 15) : ((0#1 ++ list : BitVec 16) == 0) = (list == 0) := by
  rw [Bool.eq_iff_iff, beq_iff_eq, beq_iff_eq, ← BitVec.toNat_inj, ← BitVec.toNat_inj,
    BitVec.toNat_append (x := 0#1) (y := list)]
  simp

theorem getLsbD_fifteen_append (b : BitVec 1) (list : BitVec 15) :
    (b ++ list : BitVec 16).getLsbD 15 = b.getLsbD 0 :=
  (BitVec.getLsbD_append (x := b) (y := list) (i := 15)).trans (if_neg (by decide))

theorem one_append_beq_zero (list : BitVec 15) : ((1#1 ++ list : BitVec 16) == 0) = false := by
  rw [beq_eq_false_iff_ne]
  intro h
  have htop := getLsbD_fifteen_append 1#1 list
  rw [h] at htop
  exact absurd htop (by decide)

theorem verdict_blockLoadUser (b : BlockMode) (w : Bool) (rn : Reg) (list : BitVec 15) :
    Verdict (blockDefect (list == 0) w rn) allowed (s.blockLoadUser b w rn (0#1 ++ list)) :=
  verdict_block (zero_append_beq_zero list) (fun why h => by rw [State.blockLoadUser, h]) fun h => by
    rw [State.blockLoadUser, h]
    exact verdict_ite rfl

theorem verdict_blockStoreUser (b : BlockMode) (w : Bool) (rn : Reg) (list : BitVec 16) :
    Verdict (blockDefect (list == 0) w rn) allowed (s.blockStoreUser b w rn list) :=
  verdict_block rfl (fun why h => by rw [State.blockStoreUser, h]) fun h => by
    rw [State.blockStoreUser, h]
    exact verdict_ite rfl

/-- A block load leaves the CPSR and the SPSRs alone, so a restore after it is one before it. -/
theorem restorable_doBlockLoad (b : BlockMode) (w : Bool) (rn : Reg) (view : Mode) (list : BitVec 16) :
    Restorable (s.doBlockLoad b w rn view list).1 ↔ Restorable s := by
  have hwords := State.loadWords_snd (listedRegs list).length s (b.start (s.x rn) (listBytes list))
  have hcpsr : (s.doBlockLoad b w rn view list).1.cpsr = s.cpsr := by
    simp only [State.doBlockLoad, State.setRegs_cpsr, hwords]
    cases w <;> rfl
  have hspsrs : (s.doBlockLoad b w rn view list).1.spsrs = s.spsrs := by
    simp only [State.doBlockLoad, (State.setRegs_rest view _ _).1, hwords]
    cases w <;> rfl
  rw [Restorable, Restorable, hcpsr, hspsrs]

theorem verdict_blockLoadRestore {b : BlockMode} {w : Bool} {rn : Reg} {list : BitVec 15} (hallowed : allowed → Restorable s) :
    Verdict (blockDefect false false rn) allowed (s.blockLoadRestore b w rn (1#1 ++ list)) :=
  verdict_block (one_append_beq_zero list) (fun why h => by rw [State.blockLoadRestore, h]) fun h => by
    rw [State.blockLoadRestore, h]
    refine .of_completes fun ha => ?_
    obtain ⟨p, hp, -⟩ := State.afterRestore_of_restorable ((restorable_doBlockLoad b w rn s.mode _).2 (hallowed ha)) fun t =>
      t.branchTo ((s.doBlockLoad b w rn s.mode (1#1 ++ list)).2.getD 0)
    exact ⟨_, hp⟩

theorem setWidth_beq_zero (rlist : BitVec 8) : ((rlist.setWidth 16 : BitVec 16) == 0) = (rlist == 0) := by
  rw [Bool.eq_iff_iff, beq_iff_eq, beq_iff_eq, ← BitVec.toNat_inj, ← BitVec.toNat_inj, BitVec.toNat_setWidth_of_le (by decide)]
  simp

theorem pushList_beq_zero (r : Bool) (rlist : BitVec 8) : (pushList r rlist == 0) = (rlist == 0 && !r) := by
  revert r rlist
  decide

theorem popList_beq_zero (r : Bool) (rlist : BitVec 8) : (popList r rlist == 0) = (rlist == 0 && !r) := by
  revert r rlist
  decide

theorem verdict_thumbLoad {empty : Bool} {rn : Reg} {list : BitVec 16} (b : BlockMode) (w : Bool) (hr : rn ≠ 15)
    (hempty : (list == 0) = empty) : Verdict (defectIf empty .emptyRegisterList) allowed (s.blockLoad b w rn list) :=
  verdict_thumbBlock hr hempty (hempty ▸ verdict_blockLoad b w rn list)

theorem verdict_thumbStore {empty : Bool} {rn : Reg} {list : BitVec 16} (b : BlockMode) (w : Bool) (hr : rn ≠ 15)
    (hempty : (list == 0) = empty) : Verdict (defectIf empty .emptyRegisterList) allowed (s.blockStore b w rn list) :=
  verdict_thumbBlock hr hempty (hempty ▸ verdict_blockStore b w rn list)

/-! ## Branches -/

theorem verdict_undefinedRoute : Verdict none allowed s.undefinedRoute := by
  rw [State.undefinedRoute]
  cases s.cfg.undPolicy
  · exact Verdict.next _
  · exact Verdict.next _

theorem verdict_blx (t : State) (hasBlx : Bool) :
    Verdict none allowed (if hasBlx then .next t else s.undefinedRoute) := by
  cases hasBlx
  · exact verdict_undefinedRoute
  · exact Verdict.next t

theorem verdict_thumbCondBranch (c : Cond) (soffset8 : BitVec 8) : Verdict none allowed (s.thumbCondBranch c soffset8) := by
  by_cases hc : Passes c s
  · exact (Verdict.next _).ifCond hc
  · rw [State.thumbCondBranch, State.ifCond_fail hc]
    exact Verdict.next s

/-! ## Every instruction -/

theorem exec_verdict {i : Instr} {s : State} (hc : Passes (condition i) s) :
    Verdict i.defect? (StateAllows i s) (exec i s) := by
  cases i with
  | andImm => exact verdict_dataInstr hc .and _ _ _ (.imm _ _)
  | andShImm => exact verdict_dataInstr hc .and _ _ _ (.shImm _ _ _)
  | andShReg => exact verdict_dataInstr hc .and _ _ _ (.shReg _ _ _)
  | eorImm => exact verdict_dataInstr hc .eor _ _ _ (.imm _ _)
  | eorShImm => exact verdict_dataInstr hc .eor _ _ _ (.shImm _ _ _)
  | eorShReg => exact verdict_dataInstr hc .eor _ _ _ (.shReg _ _ _)
  | subImm => exact verdict_dataInstr hc .sub _ _ _ (.imm _ _)
  | subShImm => exact verdict_dataInstr hc .sub _ _ _ (.shImm _ _ _)
  | subShReg => exact verdict_dataInstr hc .sub _ _ _ (.shReg _ _ _)
  | rsbImm => exact verdict_dataInstr hc .rsb _ _ _ (.imm _ _)
  | rsbShImm => exact verdict_dataInstr hc .rsb _ _ _ (.shImm _ _ _)
  | rsbShReg => exact verdict_dataInstr hc .rsb _ _ _ (.shReg _ _ _)
  | addImm => exact verdict_dataInstr hc .add _ _ _ (.imm _ _)
  | addShImm => exact verdict_dataInstr hc .add _ _ _ (.shImm _ _ _)
  | addShReg => exact verdict_dataInstr hc .add _ _ _ (.shReg _ _ _)
  | adcImm => exact verdict_dataInstr hc .adc _ _ _ (.imm _ _)
  | adcShImm => exact verdict_dataInstr hc .adc _ _ _ (.shImm _ _ _)
  | adcShReg => exact verdict_dataInstr hc .adc _ _ _ (.shReg _ _ _)
  | sbcImm => exact verdict_dataInstr hc .sbc _ _ _ (.imm _ _)
  | sbcShImm => exact verdict_dataInstr hc .sbc _ _ _ (.shImm _ _ _)
  | sbcShReg => exact verdict_dataInstr hc .sbc _ _ _ (.shReg _ _ _)
  | rscImm => exact verdict_dataInstr hc .rsc _ _ _ (.imm _ _)
  | rscShImm => exact verdict_dataInstr hc .rsc _ _ _ (.shImm _ _ _)
  | rscShReg => exact verdict_dataInstr hc .rsc _ _ _ (.shReg _ _ _)
  | tstImm => exact verdict_dataInstr hc .tst true _ _ (.imm _ _)
  | tstShImm => exact verdict_dataInstr hc .tst true _ _ (.shImm _ _ _)
  | tstShReg => exact verdict_dataInstr hc .tst true _ _ (.shReg _ _ _)
  | teqImm => exact verdict_dataInstr hc .teq true _ _ (.imm _ _)
  | teqShImm => exact verdict_dataInstr hc .teq true _ _ (.shImm _ _ _)
  | teqShReg => exact verdict_dataInstr hc .teq true _ _ (.shReg _ _ _)
  | cmpImm => exact verdict_dataInstr hc .cmp true _ _ (.imm _ _)
  | cmpShImm => exact verdict_dataInstr hc .cmp true _ _ (.shImm _ _ _)
  | cmpShReg => exact verdict_dataInstr hc .cmp true _ _ (.shReg _ _ _)
  | cmnImm => exact verdict_dataInstr hc .cmn true _ _ (.imm _ _)
  | cmnShImm => exact verdict_dataInstr hc .cmn true _ _ (.shImm _ _ _)
  | cmnShReg => exact verdict_dataInstr hc .cmn true _ _ (.shReg _ _ _)
  | orrImm => exact verdict_dataInstr hc .orr _ _ _ (.imm _ _)
  | orrShImm => exact verdict_dataInstr hc .orr _ _ _ (.shImm _ _ _)
  | orrShReg => exact verdict_dataInstr hc .orr _ _ _ (.shReg _ _ _)
  | movImm => exact verdict_dataInstr hc .mov _ _ _ (.imm _ _)
  | movShImm => exact verdict_dataInstr hc .mov _ _ _ (.shImm _ _ _)
  | movShReg => exact verdict_dataInstr hc .mov _ _ _ (.shReg _ _ _)
  | bicImm => exact verdict_dataInstr hc .bic _ _ _ (.imm _ _)
  | bicShImm => exact verdict_dataInstr hc .bic _ _ _ (.shImm _ _ _)
  | bicShReg => exact verdict_dataInstr hc .bic _ _ _ (.shReg _ _ _)
  | mvnImm => exact verdict_dataInstr hc .mvn _ _ _ (.imm _ _)
  | mvnShImm => exact verdict_dataInstr hc .mvn _ _ _ (.shImm _ _ _)
  | mvnShReg => exact verdict_dataInstr hc .mvn _ _ _ (.shReg _ _ _)
  | mul => exact (verdict_mul _ _ _ _ _).ifCond hc
  | mla => exact (verdict_mla _ _ _ _ _ _).ifCond hc
  | umull => exact (verdict_long _ _ _ _ _ _).ifCond hc
  | umlal => exact (verdict_long _ _ _ _ _ _).ifCond hc
  | smull => exact (verdict_long _ _ _ _ _ _).ifCond hc
  | smlal => exact (verdict_long _ _ _ _ _ _).ifCond hc
  | mrs => exact (verdict_mrs _ _).ifCond hc
  | msrReg => exact (verdict_msrReg fun h => h.1 _ _ _ _ rfl).ifCond hc
  | msrImm => exact (verdict_writePsr fun h => h.2.1 _ _ _ _ _ rfl).ifCond hc
  | ldrImmPre => exact (verdict_singleLoad _ ⟨true, _, _⟩ _ _ (.imm12 _)).ifCond hc
  | ldrImmPost => exact (verdict_singleLoad _ ⟨false, _, false⟩ _ _ (.imm12 _)).ifCond hc
  | ldrtImm => exact (verdict_singleLoad _ ⟨false, _, true⟩ _ _ (.imm12 _)).ifCond hc
  | ldrRegPre => exact (verdict_singleLoad _ ⟨true, _, _⟩ _ _ (.shifted _ _ _)).ifCond hc
  | ldrRegPost => exact (verdict_singleLoad _ ⟨false, _, false⟩ _ _ (.shifted _ _ _)).ifCond hc
  | ldrtReg => exact (verdict_singleLoad _ ⟨false, _, true⟩ _ _ (.shifted _ _ _)).ifCond hc
  | strImmPre => exact (verdict_singleStore _ ⟨true, _, _⟩ _ _ (.imm12 _)).ifCond hc
  | strImmPost => exact (verdict_singleStore _ ⟨false, _, false⟩ _ _ (.imm12 _)).ifCond hc
  | strtImm => exact (verdict_singleStore _ ⟨false, _, true⟩ _ _ (.imm12 _)).ifCond hc
  | strRegPre => exact (verdict_singleStore _ ⟨true, _, _⟩ _ _ (.shifted _ _ _)).ifCond hc
  | strRegPost => exact (verdict_singleStore _ ⟨false, _, false⟩ _ _ (.shifted _ _ _)).ifCond hc
  | strtReg => exact (verdict_singleStore _ ⟨false, _, true⟩ _ _ (.shifted _ _ _)).ifCond hc
  | ldrbImmPre => exact (verdict_singleLoad _ ⟨true, _, _⟩ _ _ (.imm12 _)).ifCond hc
  | ldrbImmPost => exact (verdict_singleLoad _ ⟨false, _, false⟩ _ _ (.imm12 _)).ifCond hc
  | ldrbtImm => exact (verdict_singleLoad _ ⟨false, _, true⟩ _ _ (.imm12 _)).ifCond hc
  | ldrbRegPre => exact (verdict_singleLoad _ ⟨true, _, _⟩ _ _ (.shifted _ _ _)).ifCond hc
  | ldrbRegPost => exact (verdict_singleLoad _ ⟨false, _, false⟩ _ _ (.shifted _ _ _)).ifCond hc
  | ldrbtReg => exact (verdict_singleLoad _ ⟨false, _, true⟩ _ _ (.shifted _ _ _)).ifCond hc
  | strbImmPre => exact (verdict_singleStore _ ⟨true, _, _⟩ _ _ (.imm12 _)).ifCond hc
  | strbImmPost => exact (verdict_singleStore _ ⟨false, _, false⟩ _ _ (.imm12 _)).ifCond hc
  | strbtImm => exact (verdict_singleStore _ ⟨false, _, true⟩ _ _ (.imm12 _)).ifCond hc
  | strbRegPre => exact (verdict_singleStore _ ⟨true, _, _⟩ _ _ (.shifted _ _ _)).ifCond hc
  | strbRegPost => exact (verdict_singleStore _ ⟨false, _, false⟩ _ _ (.shifted _ _ _)).ifCond hc
  | strbtReg => exact (verdict_singleStore _ ⟨false, _, true⟩ _ _ (.shifted _ _ _)).ifCond hc
  | strhReg => exact (verdict_halfStore ⟨_, _, _⟩ _ _ (.plain _)).ifCond hc
  | strhImm => exact (verdict_halfStore ⟨_, _, _⟩ _ _ (.imm8 _)).ifCond hc
  | ldrhReg => exact (verdict_halfLoad _ ⟨_, _, _⟩ _ _ (.plain _)).ifCond hc
  | ldrhImm => exact (verdict_halfLoad _ ⟨_, _, _⟩ _ _ (.imm8 _)).ifCond hc
  | ldrsbReg => exact (verdict_halfLoad _ ⟨_, _, _⟩ _ _ (.plain _)).ifCond hc
  | ldrsbImm => exact (verdict_halfLoad _ ⟨_, _, _⟩ _ _ (.imm8 _)).ifCond hc
  | ldrshReg => exact (verdict_halfLoad _ ⟨_, _, _⟩ _ _ (.plain _)).ifCond hc
  | ldrshImm => exact (verdict_halfLoad _ ⟨_, _, _⟩ _ _ (.imm8 _)).ifCond hc
  | swp => exact (verdict_swap _ _ _ _).ifCond hc
  | swpb => exact (verdict_swap _ _ _ _).ifCond hc
  | ldm => exact (verdict_blockLoad _ _ _ _).ifCond hc
  | ldmUser => exact (verdict_blockLoadUser _ _ _ _).ifCond hc
  | ldmRestore => exact (verdict_blockLoadRestore fun h => h.2.2.1 _ _ _ _ _ _ rfl).ifCond hc
  | stm => exact (verdict_blockStore _ _ _ _).ifCond hc
  | stmUser => exact (verdict_blockStoreUser _ _ _ _).ifCond hc
  | b => exact (Verdict.next _).ifCond hc
  | bl => exact (Verdict.next _).ifCond hc
  | bx => exact (Verdict.next _).ifCond hc
  | blx => exact (verdict_blx _ _).ifCond hc
  | swi => exact (Verdict.next _).ifCond hc
  | undefinedPattern => exact verdict_undefinedRoute.ifCond hc
  | tLslImm => exact Verdict.next _
  | tLsrImm => exact Verdict.next _
  | tAsrImm => exact Verdict.next _
  | tAddReg => exact Verdict.next _
  | tSubReg => exact Verdict.next _
  | tAddImm3 => exact Verdict.next _
  | tSubImm3 => exact Verdict.next _
  | tMovImm => exact Verdict.next _
  | tCmpImm => exact Verdict.next _
  | tAddImm => exact Verdict.next _
  | tSubImm => exact Verdict.next _
  | tAnd => exact Verdict.next _
  | tEor => exact Verdict.next _
  | tLslReg => exact Verdict.next _
  | tLsrReg => exact Verdict.next _
  | tAsrReg => exact Verdict.next _
  | tAdc => exact Verdict.next _
  | tSbc => exact Verdict.next _
  | tRorReg => exact Verdict.next _
  | tTst => exact Verdict.next _
  | tNeg => exact Verdict.next _
  | tCmpReg => exact Verdict.next _
  | tCmn => exact Verdict.next _
  | tOrr => exact Verdict.next _
  | tMul => exact Verdict.next _
  | tBic => exact Verdict.next _
  | tMvn => exact Verdict.next _
  | tAddHi => exact Verdict.next _
  | tCmpHi => exact Verdict.next _
  | tMovHi => exact Verdict.next _
  | tBx => exact Verdict.next _
  | tLdrPc => exact Verdict.next _
  | tStrReg => exact Verdict.next _
  | tStrbReg => exact Verdict.next _
  | tLdrReg => exact Verdict.next _
  | tLdrbReg => exact Verdict.next _
  | tStrhReg => exact Verdict.next _
  | tLdrhReg => exact Verdict.next _
  | tLdsb => exact Verdict.next _
  | tLdsh => exact Verdict.next _
  | tStrImm => exact Verdict.next _
  | tLdrImm => exact Verdict.next _
  | tStrbImm => exact Verdict.next _
  | tLdrbImm => exact Verdict.next _
  | tStrhImm => exact Verdict.next _
  | tLdrhImm => exact Verdict.next _
  | tStrSp => exact Verdict.next _
  | tLdrSp => exact Verdict.next _
  | tAddPc => exact Verdict.next _
  | tAddSp => exact Verdict.next _
  | tSpAdd => exact Verdict.next _
  | tSpSub => exact Verdict.next _
  | tPush => exact verdict_thumbStore _ _ (by decide) (pushList_beq_zero _ _)
  | tPop => exact verdict_thumbLoad _ _ (by decide) (popList_beq_zero _ _)
  | tStmia => exact verdict_thumbStore _ _ (lowReg_ne_fifteen _) (setWidth_beq_zero _)
  | tLdmia => exact verdict_thumbLoad _ _ (lowReg_ne_fifteen _) (setWidth_beq_zero _)
  | tBeq => exact verdict_thumbCondBranch _ _
  | tBne => exact verdict_thumbCondBranch _ _
  | tBcs => exact verdict_thumbCondBranch _ _
  | tBcc => exact verdict_thumbCondBranch _ _
  | tBmi => exact verdict_thumbCondBranch _ _
  | tBpl => exact verdict_thumbCondBranch _ _
  | tBvs => exact verdict_thumbCondBranch _ _
  | tBvc => exact verdict_thumbCondBranch _ _
  | tBhi => exact verdict_thumbCondBranch _ _
  | tBls => exact verdict_thumbCondBranch _ _
  | tBge => exact verdict_thumbCondBranch _ _
  | tBlt => exact verdict_thumbCondBranch _ _
  | tBgt => exact verdict_thumbCondBranch _ _
  | tBle => exact verdict_thumbCondBranch _ _
  | tSwi => exact Verdict.next _
  | tB => exact Verdict.next _
  | tBlHigh => exact Verdict.next _
  | tBlLow => exact Verdict.next _
  | tBlxLow => exact verdict_blx _ _

/-- Settles O28. -/
theorem illFormedRefused : Obligations.IllFormedRefused := fun _ _ d hd hc => (exec_verdict hc).refuses d hd

/-- Settles O29: a next state by `exec_verdict`, or by a failed condition; what it leaves alone is `exec_effect`. -/
theorem wellFormedCompletes : Obligations.WellFormedCompletes := by
  intro i s hw ha
  have hdefect : i.defect? = none := beq_iff_eq.1 hw
  have hnext : ∃ t, exec i s = .next t := by
    by_cases hc : Passes (condition i) s
    · exact (exec_verdict hc).completes hdefect ha
    · exact ⟨s, exec_of_not_passes hc⟩
  obtain ⟨t, ht⟩ := hnext
  have he := exec_effect ht
  exact ⟨t, ht, he.slot, he.irq, he.cfg, he.ia⟩

end Sys2Proof.Machine
end

section
/-! ARM single, halfword and swap transfers (spec/44_arm_load_store.md R240 to R265). -/

namespace Sys2Proof.Claims

open Sys2Proof.Machine

theorem Frame.writeBack {s t : State} {written : List Cell} {calls : List BusCall} {branched : Bool}
    (h : Frame s t written calls branched) (ix : Indexing) (rn : Reg) (target : Word) :
    Frame s (t.writeBack ix rn target) (writtenBase t ix rn ++ written) calls branched := by
  unfold State.writeBack writtenBase
  cases ix.writesBack
  · exact h
  · exact h.setX rn target

end Sys2Proof.Claims

namespace Sys2Proof.Machine

open Sys2Proof.Claims

theorem ofInt_unsigned_sub (a b : Word) : BitVec.ofInt 32 (unsigned a + -unsigned b) = a - b := by
  rw [BitVec.ofInt_add, BitVec.ofInt_neg, ofInt_unsigned, ofInt_unsigned, BitVec.sub_eq_add_neg]

theorem State.indexTarget_eq_ofInt (s : State) (ix : Indexing) (rn : Reg) (o : Offset) : s.indexTarget ix rn o =
    BitVec.ofInt 32 (unsigned (s.regA rn) + (if ix.up then unsigned (s.offset o) else -unsigned (s.offset o))) := by
  rw [State.indexTarget]
  cases ix.up
  · exact (ofInt_unsigned_sub _ _).symm
  · exact (ofInt_unsigned_add _ _).symm

/-- Settles O40. -/
theorem transferAddress : Obligations.TransferAddress := by
  intro s ix rn rm o imm12 imm8 amount ty
  exact ⟨(BitVec.ofNat_toNat ..).symm, (BitVec.ofNat_toNat ..).symm, rfl, rfl, s.indexTarget_eq_ofInt ix rn o, rfl, rfl⟩

/-! ## What a load and a store do -/

variable {s : State} {ix : Indexing} {rn : Reg} {o : Offset}

theorem State.writeBack_cpsr (s : State) (ix : Indexing) (rn : Reg) (target : Word) :
    (s.writeBack ix rn target).cpsr = s.cpsr := by
  unfold State.writeBack
  split <;> rfl

theorem State.writeBack_mem (s : State) (ix : Indexing) (rn : Reg) (target : Word) :
    (s.writeBack ix rn target).mem = s.mem := by
  unfold State.writeBack
  split <;> rfl

theorem State.x_writeBack (h : ix.writesBack = true) (s : State) (rn : Reg) (target : Word) :
    (s.writeBack ix rn target).x rn = target := by
  rw [State.writeBack, if_pos h, State.x_setX, if_pos rfl]

theorem State.x_writeReg_self (s : State) {i : Reg} (h : i ≠ 15) (v : Word) : (s.writeReg i v).x i = v := by
  rw [State.writeReg, if_neg h, State.x_setX, if_pos rfl]

theorem State.x_writeReg_ne (s : State) {i j : Reg} (hi : i ≠ 15) (hij : i ≠ j) (v : Word) :
    (s.writeReg j v).x i = s.x i := by
  unfold State.writeReg
  split
  · exact s.x_branchTo hi v
  · rw [State.x_setX, if_neg hij]

/-- The base of a form that writes back is not r15, so the loaded value alone could win over the target. -/
theorem State.x_doLoad_base (hw : ix.writesBack = true) (hbase : ¬(rn = 15 ∧ ix.writesBack = true)) {rd : Reg}
    (hne : rn ≠ rd) (s : State) (k : LoadKind) (o : Offset) : (s.doLoad k ix rn rd o).x rn = s.indexTarget ix rn o := by
  rw [State.doLoad, State.x_writeReg_ne _ (fun h => hbase ⟨h, hw⟩) hne, State.x_writeBack hw]

theorem State.doLoad_cpsr (s : State) (k : LoadKind) (ix : Indexing) (rn rd : Reg) (o : Offset) :
    (s.doLoad k ix rn rd o).cpsr = s.cpsr := by
  rw [State.doLoad, State.writeReg_cpsr, State.writeBack_cpsr, State.load_snd_cpsr]

theorem State.doLoad_mem (s : State) (k : LoadKind) (ix : Indexing) (rn rd : Reg) (o : Offset) :
    (s.doLoad k ix rn rd o).mem = s.mem := by
  rw [State.doLoad, State.writeReg_mem, State.writeBack_mem, State.load_snd_mem]

theorem frame_doLoad (s : State) (k : LoadKind) (ix : Indexing) (rn rd : Reg) (o : Offset) :
    Frame s (s.doLoad k ix rn rd o) (cell s.mode rd :: writtenBase s ix rn)
      [.read (loadWidth k (s.indexAddr ix rn o)) (s.indexAddr ix rn o)] (decide (rd = 15)) := by
  have hframe := (((Frame.refl s).load k (s.indexAddr ix rn o)).writeBack ix rn (s.indexTarget ix rn o)).writeReg rd
    (s.load k (s.indexAddr ix rn o)).1
  rw [List.append_nil, State.mode, State.writeBack_cpsr] at hframe
  exact hframe

theorem State.doStore_cpsr (s : State) (w : Width) (ix : Indexing) (rn rd : Reg) (o : Offset) :
    (s.doStore w ix rn rd o).cpsr = s.cpsr := by
  rw [State.doStore, State.writeBack_cpsr, State.busWrite_cpsr]

/-- The whole effect of a store. -/
theorem doStore_effect (hmem : s.mem.wf = true) (w : Width) (ix : Indexing) (rn rd : Reg) (o : Offset) :
    let t := s.doStore w ix rn rd o
    let a := s.indexAddr ix rn o
    StoredBytes s t w a (storedReg s rd) ∧ (ix.writesBack = true → t.x rn = s.indexTarget ix rn o) ∧
    SameFlags s t ∧ SameControl s t ∧
    Frame s t (writtenBase s ix rn)
      [.write w (storeAddr w a) (BitVec.setWidth 32 (BitVec.setWidth (8 * widthBytes w) (storedReg s rd)))] false := by
  intro t a
  have hbytes := State.storedBytes_busWrite hmem w a (storedReg s rd)
  have hframe := ((Frame.refl s).busWrite w a (storedReg s rd)).writeBack ix rn (s.indexTarget ix rn o)
  rw [List.append_nil] at hframe
  have ht : t = (s.busWrite w a (storedReg s rd)).writeBack ix rn (s.indexTarget ix rn o) := by
    rw [← State.storeValue_eq]
    rfl
  refine ⟨?_, fun hw => ?_, sameFlags_of_cpsr (s.doStore_cpsr ..), sameControl_of_cpsr (s.doStore_cpsr ..), ht ▸ hframe⟩
  · rw [StoredBytes, ht, State.writeBack_mem]
    exact hbytes
  · rw [ht, State.x_writeBack hw]

/-! ## The forms that nothing refuses -/

theorem transferForbidden_eq_false (ho : o.usesR15 = false) (hbase : ¬(rn = 15 ∧ ix.writesBack = true)) :
    transferForbidden ix rn o = false := by
  rw [transferForbidden, ho, Bool.false_or, Bool.eq_false_iff, Ne, Bool.and_eq_true, beq_iff_eq]
  exact hbase

theorem State.singleLoad_of_allowed (ho : o.usesR15 = false) (hbase : ¬(rn = 15 ∧ ix.writesBack = true)) (s : State)
    (k : LoadKind) (rd : Reg) : s.singleLoad k ix rn rd o = .next (s.doLoad k ix rn rd o) := by
  rw [State.singleLoad, transferForbidden_eq_false ho hbase]
  rfl

theorem State.singleStore_of_allowed (ho : o.usesR15 = false) (hbase : ¬(rn = 15 ∧ ix.writesBack = true)) (s : State)
    (w : Width) (rd : Reg) : s.singleStore w ix rn rd o = .next (s.doStore w ix rn rd o) := by
  rw [State.singleStore, transferForbidden_eq_false ho hbase]
  rfl

theorem not_pre_and_w_eq_false (hpost : ¬(ix.pre = false ∧ ix.w = true)) : (!ix.pre && ix.w) = false := by
  rwa [Bool.eq_false_iff, Ne, Bool.and_eq_true, Bool.not_eq_true']

theorem State.halfLoad_of_allowed (ho : o.usesR15 = false) (hbase : ¬(rn = 15 ∧ ix.writesBack = true))
    (hpost : ¬(ix.pre = false ∧ ix.w = true)) {rd : Reg} (hrd : rd ≠ 15) (s : State) (k : LoadKind) :
    s.halfLoad k ix rn rd o = .next (s.doLoad k ix rn rd o) := by
  rw [State.halfLoad, not_pre_and_w_eq_false hpost, transferForbidden_eq_false ho hbase, beq_eq_false_iff_ne.2 hrd]
  rfl

theorem State.halfStore_of_allowed (ho : o.usesR15 = false) (hbase : ¬(rn = 15 ∧ ix.writesBack = true))
    (hpost : ¬(ix.pre = false ∧ ix.w = true)) (s : State) (rd : Reg) :
    s.halfStore ix rn rd o = .next (s.doStore .half ix rn rd o) := by
  rw [State.halfStore, not_pre_and_w_eq_false hpost, transferForbidden_eq_false ho hbase]
  rfl

theorem loadWidth_ite (byte : Bool) (a : Word) :
    loadWidth (if byte then .byte else .word) a = if byte then .byte else .word := by cases byte <;> rfl

/-- Settles O41. -/
theorem loadsRegister : Obligations.LoadsRegister := by
  intro s byte c ix rn rd o hrd ho hbase hc a
  have hframe := frame_doLoad s (if byte then .byte else .word) ix rn rd o.offset
  rw [loadWidth_ite, decide_eq_false hrd] at hframe
  refine ⟨s.doLoad (if byte then .byte else .word) ix rn rd o.offset, ?_, ?_, fun hw hne => ?_,
    sameFlags_of_cpsr (s.doLoad_cpsr ..), sameControl_of_cpsr (s.doLoad_cpsr ..), sameBytes_of_mem (s.doLoad_mem ..), hframe⟩
  · rw [exec_loadInstr, State.ifCond_pass hc, State.singleLoad_of_allowed ho hbase]
  · rw [State.doLoad, State.x_writeReg_self _ hrd]
    exact State.loaded_load _ s a
  · exact s.x_doLoad_base hw hbase hne _ _

/-- Settles O42. -/
theorem loadsPc : Obligations.LoadsPc := by
  intro s byte c ix rn o harm ho hbase hc a
  have hframe := frame_doLoad s (if byte then .byte else .word) ix rn 15 o.offset
  rw [loadWidth_ite, cell_fifteen] at hframe
  refine ⟨s.doLoad (if byte then .byte else .word) ix rn 15 o.offset, ?_, ⟨_, State.loaded_load _ s a, ?_⟩, fun hw => ?_,
    sameFlags_of_cpsr (s.doLoad_cpsr ..), sameControl_of_cpsr (s.doLoad_cpsr ..), sameBytes_of_mem (s.doLoad_mem ..), hframe⟩
  · rw [exec_loadInstr, State.ifCond_pass hc, State.singleLoad_of_allowed ho hbase]
  · rw [State.doLoad, State.writeReg, if_pos rfl, State.pc_branchTo, State.writeBack_cpsr, State.load_snd_cpsr, harm]
    rfl
  · exact s.x_doLoad_base hw hbase (fun h => hbase ⟨h, hw⟩) _ _

/-- Settles O43. -/
theorem loadsHalfword : Obligations.LoadsHalfword := by
  intro s k c ix rn rd o hrd ho hbase hpost hc a
  have hframe := frame_doLoad s k.kind ix rn rd o.offset
  rw [decide_eq_false hrd] at hframe
  refine ⟨s.doLoad k.kind ix rn rd o.offset, ?_, ?_, fun hw hne => ?_,
    sameFlags_of_cpsr (s.doLoad_cpsr ..), sameControl_of_cpsr (s.doLoad_cpsr ..), sameBytes_of_mem (s.doLoad_mem ..), hframe⟩
  · rw [exec_halfLoadInstr, State.ifCond_pass hc, State.halfLoad_of_allowed ho hbase hpost hrd]
  · rw [State.doLoad, State.x_writeReg_self _ hrd]
    exact State.loaded_load _ s a
  · exact s.x_doLoad_base hw hbase hne _ _

/-- Settles O44. -/
theorem storesRegister : Obligations.StoresRegister := by
  intro s c ix rn rd hmem hbase hc effect
  refine ⟨fun byte o ho => ⟨_, ?_, doStore_effect hmem (if byte then .byte else .word) ix rn rd o.offset⟩,
    fun o ho hpost => ⟨_, ?_, doStore_effect hmem .half ix rn rd o.offset⟩⟩
  · rw [exec_storeInstr, State.ifCond_pass hc, State.singleStore_of_allowed ho hbase]
  · rw [exec_halfStoreInstr, State.ifCond_pass hc, State.halfStore_of_allowed ho hbase hpost]

/-- The whole effect of a swap: the frame is that of a load, a store and a register write. -/
theorem swap_effect (hmem : s.mem.wf = true) (k : LoadKind) (w : Width) (a v : Word) (rd : Reg) :
    let t := ((s.load k a).2.busWrite w a v).setX rd (s.load k a).1
    Loaded k s a (t.x rd) ∧ StoredBytes s t w a v ∧ SameFlags s t ∧ SameControl s t ∧
    Frame s t [cell s.mode rd] [.read (loadWidth k a) a,
      .write w (storeAddr w a) (BitVec.setWidth 32 (BitVec.setWidth (8 * widthBytes w) v))] false := by
  refine ⟨?_, State.storedBytes_busWrite (s := (s.load k a).2) hmem w a v, sameFlags_of_cpsr rfl, sameControl_of_cpsr rfl,
    (((Frame.refl s).load k a).busWrite w a v).setX rd _⟩
  rw [State.x_setX, if_pos rfl]
  exact State.loaded_load k s a

theorem State.swap_of_allowed {rn rd rm : Reg} (hrn : rn ≠ 15) (hrd : rd ≠ 15) (hrm : rm ≠ 15) (s : State) (w : Width) :
    s.swap w rn rd rm = .next (((s.load (if w = .byte then .byte else .word) (s.x rn)).2.busWrite w (s.x rn) (s.x rm)).setX rd
      (s.load (if w = .byte then .byte else .word) (s.x rn)).1) := by
  rw [State.swap, beq_eq_false_iff_ne.2 hrn, beq_eq_false_iff_ne.2 hrd, beq_eq_false_iff_ne.2 hrm]
  rfl

/-- Settles O45. -/
theorem swapsMemory : Obligations.SwapsMemory := by
  intro s c rn rd rm hmem hrn hrd hrm hc a effect
  have hanswer (w : Width) := (State.ifCond_pass hc _).trans (s.swap_of_allowed hrn hrd hrm w)
  exact ⟨⟨_, hanswer .word, swap_effect hmem .word .word a (s.x rm) rd⟩,
    ⟨_, hanswer .byte, swap_effect hmem .byte .byte a (s.x rm) rd⟩⟩

end Sys2Proof.Machine
end

section
/-! Block transfers (spec/45_arm_block_transfer.md R280 to R296; spec/48_thumb_mem_branch.md R395 to R402). -/

namespace Sys2Proof.Claims

open Sys2Proof.Machine

variable {s t : State} {written : List Cell} {calls : List BusCall} {branched : Bool}

theorem Frame.loadWords (h : Frame s t written calls branched) (a : Word) (n : Nat) :
    Frame s (t.loadWords a n).2 written
      (calls ++ (List.range n).map fun i => .read .word (a + BitVec.ofNat 32 (4 * i))) branched := by
  rw [State.loadWords_snd]
  exact { h with now := by simp [h.now] }

theorem Frame.setRegs (h : Frame s t written calls branched) (view : Mode) (l : List (Reg × Word)) :
    Frame s (t.setRegs view l) (written ++ l.map fun p => cell view p.1) calls branched := by
  obtain ⟨hspsrs, hslot, -, hirq, hcfg, hnow⟩ := State.setRegs_rest view l t
  refine ⟨fun c hc => ?_, hspsrs.trans h.spsrs, hslot.trans h.slot, hirq.trans h.irq, hcfg.trans h.cfg, hnow.trans h.now⟩
  rw [List.mem_append, not_or] at hc
  obtain ⟨hold, hnew⟩ := hc
  rw [State.getCell_setRegs_of_not_mem view l fun p hp _ e => hnew (List.mem_map.2 ⟨p, hp, e.symm⟩), h.cells c hold]

theorem Frame.storeWords (h : Frame s t written calls branched) (a : Word) (vs : List Word) :
    Frame s (t.storeWords a vs) written
      (calls ++ vs.zipIdx.map fun p => .write .word (wordAddr (a + BitVec.ofNat 32 (4 * p.2))) p.1) branched := by
  obtain ⟨hregs, -, hspsrs, hslot, hirq, hcfg, hia, hbranched, -⟩ := State.storeWords_rest vs t a
  refine ⟨fun c hc => ?_, hspsrs.trans h.spsrs, hslot.trans h.slot, hirq.trans h.irq, hcfg.trans h.cfg, ?_⟩
  · rw [State.getCell_congr hregs, h.cells c hc]
  · have hcalls := State.storeWords_calls vs t a
    rw [h.now] at hcalls hia hbranched
    calc (t.storeWords a vs).now
        = ⟨(t.storeWords a vs).now.ia, (t.storeWords a vs).now.branched, (t.storeWords a vs).now.calls⟩ := rfl
      _ = _ := by rw [hia, hbranched, hcalls, List.append_assoc]

/-! ## The tables of R281 in the terms of the model -/

/-- The addressing mode of a transfer. -/
def Block.mode (k : Block) : BlockMode := ⟨k.p, k.up⟩

theorem Block.start_eq (k : Block) (base : Word) : k.mode.start base (listBytes k.list) = k.start base := by
  rw [listBytes, listedRegs_length]
  rfl

theorem Block.final_eq (k : Block) (base : Word) : k.mode.final base (listBytes k.list) = k.final base := by
  rw [listBytes, listedRegs_length]
  rfl

theorem Block.cells_eq (k : Block) (view : Mode) : k.cells view = (listedRegs k.list).map (cell view) := by
  rw [Block.cells, listedRegs, allRegs_eq]

theorem Block.mem_cells {k : Block} {view : Mode} {i : Reg} : cell view i ∈ k.cells view ↔ k.list.getLsbD i.val = true := by
  rw [Block.cells_eq, List.mem_map_of_injective (cell_injective view), mem_listedRegs]

theorem pushList_eq (r : Bool) (rlist : BitVec 8) : pushList r rlist = pushed r rlist := by
  revert r rlist
  decide

theorem popList_eq (r : Bool) (rlist : BitVec 8) : popList r rlist = popped r rlist := by
  revert r rlist
  decide

theorem exec_blockLoad {i : Instr} {k : Block} (hi : IsBlockLoad i k) (hc : Passes k.c s) :
    exec i s = s.blockLoad k.mode k.w k.rn k.list := by
  rcases hi with rfl | ⟨r, rlist, rfl, rfl⟩ | ⟨rb, rlist, rfl, rfl⟩
  · exact State.ifCond_pass hc _
  · rw [← popList_eq]
    rfl
  · rfl

theorem exec_blockStore {i : Instr} {k : Block} (hi : IsBlockStore i k) (hc : Passes k.c s) :
    exec i s = s.blockStore k.mode k.w k.rn k.list := by
  rcases hi with rfl | ⟨r, rlist, rfl, rfl⟩ | ⟨rb, rlist, rfl, rfl⟩
  · exact State.ifCond_pass hc _
  · rw [← pushList_eq]
    rfl
  · rfl

/-! ## Loads -/

/-- Each listed register with the word at its place. -/
def Block.values (k : Block) (s : State) : List (Reg × Word) :=
  (listedRegs k.list).zip ((List.range (listSize k.list)).map fun n => s.mem.read32 (k.addr s n))

theorem Block.values_regs (k : Block) (s : State) : (k.values s).map Prod.fst = listedRegs k.list := by
  apply List.map_fst_zip
  rw [List.length_map, List.length_range, listedRegs_length]

theorem Block.values_mem {k : Block} {i : Reg} (h : k.list.getLsbD i.val = true) (s : State) :
    (i, s.mem.read32 (k.addr s (place k.list i))) ∈ k.values s := by
  have hplace := listedRegs_place h
  have hlt : place k.list i < listSize k.list := by
    rw [← listedRegs_length]
    exact (List.getElem?_eq_some_iff.1 hplace).1
  refine List.mem_iff_getElem?.2 ⟨place k.list i, List.getElem?_zip_eq_some.2 ⟨hplace, ?_⟩⟩
  rw [List.getElem?_map, List.getElem?_range hlt]
  rfl

theorem loadedPc_of_mem {v : Word} : ∀ {l : List (Reg × Word)}, (l.map Prod.fst).Nodup → (15, v) ∈ l → loadedPc l = some v
  | (i, w) :: l, hnodup, hmem => by
    rw [List.map_cons, List.nodup_cons] at hnodup
    rcases List.mem_cons.1 hmem with e | htail
    · cases e
      rfl
    · have hlisted : 15 ∈ l.map Prod.fst := List.mem_map_of_mem (f := Prod.fst) htail
      have hi : i ≠ 15 := fun e => hnodup.1 (e ▸ hlisted)
      rw [loadedPc, if_neg hi]
      exact loadedPc_of_mem hnodup.2 htail

theorem loadedPc_of_not_mem : ∀ {l : List (Reg × Word)}, 15 ∉ l.map Prod.fst → loadedPc l = none
  | [], _ => rfl
  | (i, w) :: l, h => by
    rw [List.map_cons, List.mem_cons, not_or] at h
    rw [loadedPc, if_neg (Ne.symm h.1)]
    exact loadedPc_of_not_mem h.2

/-- The word for r15. -/
theorem Block.loadedPc_values (k : Block) (s : State) : loadedPc (k.values s) =
    if k.list.getLsbD 15 = true then some (s.mem.read32 (k.addr s (place k.list 15))) else none := by
  by_cases h : k.list.getLsbD 15 = true
  · rw [if_pos h]
    exact loadedPc_of_mem (by rw [k.values_regs]; exact listedRegs_nodup _) (Block.values_mem (i := 15) h s)
  · rw [if_neg h]
    exact loadedPc_of_not_mem (by rw [k.values_regs]; exact fun hm => h (mem_listedRegs.1 hm))

/-- The state after the reads and the register writes of a block load. -/
def Block.loaded (k : Block) (s : State) (view : Mode) : State := (s.doBlockLoad k.mode k.w k.rn view k.list).1

/-- The same, by the steps it is made of. -/
theorem Block.loaded_eq (k : Block) (s : State) (view : Mode) : k.loaded s view =
    (let r := (s.loadWords (k.start (s.x k.rn)) (listSize k.list)).2
     if k.w then r.setX k.rn (k.final (s.x k.rn)) else r).setRegs view (k.values s) := by
  rw [Block.loaded, State.doBlockLoad, k.start_eq, k.final_eq, State.loadWords_fst, listedRegs_length]
  rfl

theorem Block.doBlockLoad_snd (k : Block) (s : State) (view : Mode) :
    (s.doBlockLoad k.mode k.w k.rn view k.list).2 =
      if k.list.getLsbD 15 = true then some (s.mem.read32 (k.addr s (place k.list 15))) else none := by
  rw [← Block.loadedPc_values, State.doBlockLoad, k.start_eq, State.loadWords_fst, listedRegs_length]
  rfl

theorem Block.loaded_cpsr (k : Block) (s : State) (view : Mode) : (k.loaded s view).cpsr = s.cpsr := by
  rw [k.loaded_eq, State.setRegs_cpsr, State.loadWords_snd]
  cases k.w <;> rfl

theorem Block.loaded_mem (k : Block) (s : State) (view : Mode) : (k.loaded s view).mem = s.mem := by
  obtain ⟨-, -, hmem, -⟩ := State.setRegs_rest view (k.values s)
    (let r := (s.loadWords (k.start (s.x k.rn)) (listSize k.list)).2
     if k.w then r.setX k.rn (k.final (s.x k.rn)) else r)
  rw [k.loaded_eq, hmem, State.loadWords_snd]
  cases k.w <;> rfl

theorem Block.loaded_frame (k : Block) (s : State) (view : Mode) :
    Frame s (k.loaded s view) (k.baseCell s ++ k.cells view) (k.reads s) false := by
  have hread := (Frame.refl s).loadWords (k.start (s.x k.rn)) (listSize k.list)
  have hcells : (k.values s).map (fun p => cell view p.1) = k.cells view := by
    rw [Block.cells_eq, ← k.values_regs s, List.map_map]
    rfl
  rw [k.loaded_eq, ← hcells]
  refine Frame.setRegs ?_ view (k.values s)
  rw [Block.baseCell]
  cases hw : k.w
  · exact hread
  · have hbase := hread.setX k.rn (k.final (s.x k.rn))
    rw [State.mode, State.loadWords_snd] at hbase
    rw [State.loadWords_snd]
    exact hbase

theorem Block.loaded_listed {k : Block} {r : Reg} (hr : r ≠ 15) (h : k.list.getLsbD r.val = true) (s : State) (view : Mode) :
    (k.loaded s view).getCell (cell view r) = s.mem.read32 (k.addr s (place k.list r)) := by
  rw [k.loaded_eq]
  exact State.getCell_setRegs_of_mem view hr _ (by rw [k.values_regs]; exact listedRegs_nodup _) (Block.values_mem h s) _

theorem Block.loaded_base {k : Block} (hw : k.w = true) (h : k.list.getLsbD k.rn.val = false) (s : State) :
    (k.loaded s s.mode).getCell (cell s.mode k.rn) = k.final (s.x k.rn) := by
  rw [k.loaded_eq, State.getCell_setRegs_of_not_mem, if_pos hw, State.loadWords_snd]
  · exact (State.x_setX _ _ _ _).trans (if_pos rfl)
  · intro p hp _ e
    rw [cell_inj] at e
    have hlisted := List.mem_map_of_mem (f := Prod.fst) hp
    rw [k.values_regs, mem_listedRegs, ← e, h] at hlisted
    cases hlisted

/-- A load that nothing refuses, with r15 left to the branch. -/
theorem Block.blockLoad_eq {k : Block} (hlist : k.list ≠ 0) (hrn : k.rn ≠ 15) (s : State) :
    s.blockLoad k.mode k.w k.rn k.list = .next (if k.list.getLsbD 15 = true then
      (k.loaded s s.mode).branchTo (s.mem.read32 (k.addr s (place k.list 15))) else k.loaded s s.mode) := by
  rw [State.blockLoad_of_allowed (blockRefusal_eq_none hlist hrn), k.doBlockLoad_snd]
  split <;> rfl

end Sys2Proof.Claims

namespace Sys2Proof.Machine

open Sys2Proof.Claims

/-- A block load ends in a branch exactly when r15 is listed: the rest of its effect is the same. -/
theorem blockLoads_branch_frame {k : Block} {s t : State} {v : Word} {calls : List BusCall}
    (h : Frame s t (k.baseCell s ++ k.cells s.mode) calls false) (h15 : k.list.getLsbD 15 = true) :
    Frame s (t.branchTo v) (k.baseCell s ++ k.cells s.mode) calls true := by
  refine (h.branchTo v).mono (List.cons_subset.2 ⟨List.mem_append_right _ ?_, List.Subset.refl _⟩)
  rw [← cell_fifteen s.mode]
  exact Block.mem_cells.2 h15

theorem Block.x_loaded (k : Block) (s : State) (view : Mode) (r : Reg) :
    (k.loaded s view).x r = (k.loaded s view).getCell (cell s.mode r) := by
  rw [State.x, State.mode, k.loaded_cpsr]
  rfl

/-- Settles O46. -/
theorem blockLoads : Obligations.BlockLoads := by
  intro s i k hi hlist hrn hc
  have hcpsr := k.loaded_cpsr s s.mode
  have hlisted (r : Reg) (hr : r ≠ 15) (h : k.list.getLsbD r.val = true) :
      (k.loaded s s.mode).x r = s.mem.read32 (k.addr s (place k.list r)) :=
    (Block.x_loaded ..).trans (Block.loaded_listed hr h s s.mode)
  have hbase (hw : k.w = true) (h : k.list.getLsbD k.rn.val = false) :
      (k.loaded s s.mode).x k.rn = k.final (s.x k.rn) := (Block.x_loaded ..).trans (Block.loaded_base hw h s)
  have hframe := k.loaded_frame s s.mode
  refine ⟨_, (exec_blockLoad hi hc).trans (Block.blockLoad_eq hlist hrn s), ?_⟩
  by_cases h15 : k.list.getLsbD 15 = true
  · rw [if_pos h15, h15]
    refine ⟨fun r hr h => ?_, fun _ => ?_, fun hw h => ?_, sameFlags_of_cpsr hcpsr, sameControl_of_cpsr hcpsr,
      sameBytes_of_mem (k.loaded_mem s s.mode), blockLoads_branch_frame hframe h15⟩
    · rw [State.x_branchTo _ hr, hlisted r hr h]
    · rw [State.pc_branchTo, hcpsr]
      rfl
    · rw [State.x_branchTo _ hrn, hbase hw h]
  · rw [if_neg h15, Bool.eq_false_iff.2 h15]
    exact ⟨hlisted, fun h => (by cases h), hbase, sameFlags_of_cpsr hcpsr, sameControl_of_cpsr hcpsr,
      sameBytes_of_mem (k.loaded_mem s s.mode), hframe⟩

/-- Settles O47. -/
theorem blockLoadsUser : Obligations.BlockLoadsUser := by
  intro s c p up rn list hlist hrn hc k
  have hne : k.list ≠ 0 := beq_eq_false_iff_ne.1 ((zero_append_beq_zero list).trans (beq_eq_false_iff_ne.2 hlist))
  have hcpsr := k.loaded_cpsr s .user
  refine ⟨k.loaded s .user, ?_, fun r h => ?_, sameFlags_of_cpsr hcpsr, sameControl_of_cpsr hcpsr,
    sameBytes_of_mem (k.loaded_mem s .user), k.loaded_frame s .user⟩
  · show s.ifCond c (s.blockLoadUser k.mode k.w k.rn k.list) = _
    rw [State.ifCond_pass hc, State.blockLoadUser, blockRefusal_eq_none hne hrn]
    rfl
  · have hr : r ≠ 15 := by
      rintro rfl
      exact absurd ((getLsbD_fifteen_append 0#1 list).symm.trans h) (by decide)
    rw [← cell_user]
    exact Block.loaded_listed hr h s .user

/-- Settles O48. -/
theorem blockLoadsRestore : Obligations.BlockLoadsRestore := by
  intro s c p up w rn list hrn hc k v
  have hne : k.list ≠ 0 := beq_eq_false_iff_ne.1 (one_append_beq_zero list)
  have h15 : k.list.getLsbD 15 = true := (getLsbD_fifteen_append 1#1 list).trans rfl
  have hexec : exec (.ldmRestore c p up w rn list) s = (k.loaded s s.mode).afterRestore fun t => t.branchTo v := by
    show s.ifCond c (s.blockLoadRestore k.mode k.w k.rn k.list) = _
    rw [State.ifCond_pass hc, State.blockLoadRestore, blockRefusal_eq_none hne hrn]
    show (k.loaded s s.mode).afterRestore (fun t => t.branchTo ((s.doBlockLoad k.mode k.w k.rn s.mode k.list).2.getD 0)) = _
    rw [k.doBlockLoad_snd, if_pos h15]
    rfl
  have hrestorable : Restorable (k.loaded s s.mode) ↔ Restorable s := restorable_doBlockLoad k.mode w rn s.mode k.list
  refine ⟨fun h => ?restored, fun h => ?refused⟩
  case restored =>
    obtain ⟨p, hp, hcpsr⟩ := State.afterRestore_of_restorable (hrestorable.2 h) fun t => t.branchTo v
    have hframe := k.loaded_frame s s.mode
    rw [RestoredCpsr, hframe.spsrs, k.loaded_cpsr] at hcpsr
    refine ⟨_, hexec.trans hp, fun r hr hlisted => ?_, fun hw hlisted => ?_, hcpsr, State.pc_branchTo _ _,
      sameBytes_of_mem (k.loaded_mem s s.mode), blockLoads_branch_frame (hframe.setCpsr p) h15⟩
    · rw [State.getCell_branchTo, if_neg (cell_ne_pc hr _)]
      exact Block.loaded_listed hr hlisted s s.mode
    · rw [State.getCell_branchTo, if_neg (cell_ne_pc hrn _)]
      exact Block.loaded_base hw hlisted s
  case refused => exact hexec.trans (State.afterRestore_of_not_restorable (fun hr => h (hrestorable.1 hr)) _)

end Sys2Proof.Machine
end

section
/-! Block stores, and a store followed by a load (spec/45_arm_block_transfer.md R286 to R289, R295;
spec/48_thumb_mem_branch.md R396 to R401). -/

namespace Sys2Proof.Claims

open Sys2Proof.Machine

variable {s t : State} {k : Block} {i : Reg}

/-- The lowest listed register is the one at the head of the list. -/
theorem head?_listedRegs {list : BitVec 16} (h : list.getLsbD i.val = true) :
    (listedRegs list).head? = some i ↔ place list i = 0 := by
  obtain ⟨hlt, hget⟩ := List.getElem?_eq_some_iff.1 (listedRegs_place h)
  rw [List.head?_eq_getElem?]
  constructor
  · intro hhead
    obtain ⟨hpos, hfirst⟩ := List.getElem?_eq_some_iff.1 hhead
    exact (listedRegs_nodup list).getElem_inj_iff.1 (hget.trans hfirst.symm)
  · intro hplace
    rw [← listedRegs_place h, hplace]

theorem blockValue_eq (h : k.list.getLsbD i.val = true) (s : State) (view : Mode) :
    s.blockValue k.mode k.w k.rn view k.list i = blockStored k s view i := by
  simp only [State.blockValue, blockStored, k.final_eq, State.storeValue_eq, ne_eq, head?_listedRegs h]
  rfl

/-- The words of a block store, in the order of their addresses. -/
def Block.words (k : Block) (s : State) (view : Mode) : List Word := (listedRegs k.list).map (blockStored k s view)

theorem Block.words_length (k : Block) (s : State) (view : Mode) : (k.words s view).length = listSize k.list := by
  rw [Block.words, List.length_map, listedRegs_length]

theorem Block.words_place (h : k.list.getLsbD i.val = true) (s : State) (view : Mode) :
    (k.words s view)[place k.list i]? = some (blockStored k s view i) := by
  rw [Block.words, List.getElem?_map, listedRegs_place h]
  rfl

theorem listSize_le (list : BitVec 16) : listSize list ≤ 16 :=
  (List.length_filter_le ..).trans_eq (List.length_finRange ..)

/-- The memory and the calls of the run of writes. -/
theorem Block.storeWords_stored (hmem : s.mem.wf = true) (k : Block) (view : Mode) :
    BlockStored k s (s.storeWords (k.start (s.x k.rn)) (k.words s view)) view
      ((k.words s view).zipIdx.map fun p =>
        .write .word (wordAddr (k.start (s.x k.rn) + BitVec.ofNat 32 (4 * p.2))) p.1) := by
  have hlength := k.words_length s view
  refine ⟨fun i hi j hj => ?_, fun b hb => ?_, ?_, fun i hi => ?_⟩
  · obtain ⟨hlt, hget⟩ := List.getElem?_eq_some_iff.1 (Block.words_place hi s view)
    rw [← hget]
    refine State.read8_storeWords_inside (k.words s view) hmem ?_ hlt hj
    exact lt_of_le_of_lt (hlength.trans_le (listSize_le _)) (by decide)
  · exact State.read8_storeWords_outside (k.words s view) hmem fun n hn => hb n (hlength ▸ hn)
  · rw [List.length_map, List.length_zipIdx, hlength]
  · rw [List.getElem?_map, List.getElem?_zipIdx, Block.words_place hi, Nat.zero_add]
    rfl

/-- A block store by the steps it is made of. -/
theorem Block.doBlockStore_eq (k : Block) (s : State) (view : Mode) : s.doBlockStore k.mode k.w k.rn view k.list =
    (let t := s.storeWords (k.start (s.x k.rn)) (k.words s view)
     if k.w then t.setX k.rn (k.final (s.x k.rn)) else t) := by
  have hwords : (listedRegs k.list).map (s.blockValue k.mode k.w k.rn view k.list) = k.words s view :=
    List.map_congr_left fun i hi => blockValue_eq (mem_listedRegs.1 hi) s view
  rw [State.doBlockStore, k.start_eq, k.final_eq, hwords]

/-- The whole effect of a block store that nothing refuses. -/
theorem doBlockStore_effect (hmem : s.mem.wf = true) (k : Block) (view : Mode) :
    let t := s.doBlockStore k.mode k.w k.rn view k.list
    (∃ calls, BlockStored k s t view calls ∧ Frame s t (k.baseCell s) calls false) ∧
    (k.w = true → t.x k.rn = k.final (s.x k.rn)) ∧ SameFlags s t ∧ SameControl s t := by
  obtain ⟨-, hcpsr, -⟩ := State.storeWords_rest (k.words s view) s (k.start (s.x k.rn))
  have hstored := Block.storeWords_stored hmem k view
  have hframe := (Frame.refl s).storeWords (k.start (s.x k.rn)) (k.words s view)
  intro t
  rw [show t = _ from k.doBlockStore_eq s view, Block.baseCell]
  cases hw : k.w with
  | true =>
    have hbase := hframe.setX k.rn (k.final (s.x k.rn))
    rw [State.mode, hcpsr] at hbase
    refine ⟨⟨_, hstored, hbase⟩, fun _ => ?_, sameFlags_of_cpsr hcpsr, sameControl_of_cpsr hcpsr⟩
    exact (State.x_setX _ _ _ _).trans (if_pos rfl)
  | false => exact ⟨⟨_, hstored, hframe⟩, fun h => (by cases h), sameFlags_of_cpsr hcpsr, sameControl_of_cpsr hcpsr⟩

end Sys2Proof.Claims

namespace Sys2Proof.Machine

open Sys2Proof.Claims

/-- Settles O49. -/
theorem blockStores : Obligations.BlockStores := by
  intro s i k hi hlist hrn hmem hc
  refine ⟨_, (exec_blockStore hi hc).trans ?_, doBlockStore_effect hmem k s.mode⟩
  rw [State.blockStore, blockRefusal_eq_none hlist hrn]

/-- Settles O50. -/
theorem blockStoresUser : Obligations.BlockStoresUser := by
  intro s c p up rn list hlist hrn hmem hc k
  obtain ⟨hstored, -, hflags, hcontrol⟩ := doBlockStore_effect hmem k .user
  refine ⟨_, ?_, hstored, hflags, hcontrol⟩
  show s.ifCond c (s.blockStoreUser k.mode k.w k.rn k.list) = _
  rw [State.ifCond_pass hc, State.blockStoreUser, blockRefusal_eq_none hlist hrn]
  rfl

/-! ## A store and a load of the same list -/

theorem word_eq_of_bytes {v w : Word} (h : ∀ j, j < 4 → v.extractLsb' (8 * j) 8 = w.extractLsb' (8 * j) 8) : v = w := by
  apply BitVec.eq_of_getLsbD_eq
  intro n hn
  have hbit := congrArg (BitVec.getLsbD · (n % 8)) (h (n / 8) (by omega))
  simp only [BitVec.getLsbD_extractLsb', Nat.mod_lt n (by decide : 0 < 8), decide_true, Bool.true_and,
    Nat.div_add_mod] at hbit
  exact hbit

theorem read32_eq_of_bytes {m : Memory} {a v : Word}
    (h : ∀ j, j < 4 → m.read8 (wordAddr a + BitVec.ofNat 32 j) = v.extractLsb' (8 * j) 8) : m.read32 a = v :=
  word_eq_of_bytes fun j hj => (Memory.extractLsb'_read32 m a hj).trans (h j hj)

/-- The store below the base and the load from the new base up, of one list. -/
theorem store_then_load {s : State} {store load : Instr} {rn : Reg} {list : BitVec 16} (hmem : s.mem.wf = true)
    (hrn : rn ≠ 15) (hlist : list ≠ 0) (hbase : list.getLsbD rn.val = false) (hpc : list.getLsbD 15 = false)
    (hstore : IsBlockStore store ⟨.al, true, false, true, rn, list⟩)
    (hload : IsBlockLoad load ⟨.al, false, true, true, rn, list⟩) :
    Answers store s fun t => ∀ t' : State, t'.mem = t.mem → t'.cpsr.m = s.cpsr.m → t'.x rn = t.x rn →
      Answers load t' fun u => (∀ r : Reg, list.getLsbD r.val = true → u.x r = s.x r) ∧ u.x rn = s.x rn := by
  obtain ⟨t, ht, ⟨calls, ⟨hstored, -⟩, -⟩, hfinal, -⟩ := blockStores s store _ hstore hlist hrn hmem rfl
  refine ⟨t, ht, fun t' hmem' _ hx => ?_⟩
  obtain ⟨u, hu, hlisted, -, hback, -⟩ := blockLoads t' load _ hload hlist hrn rfl
  have hlow : t'.x rn = s.x rn - BitVec.ofNat 32 (4 * listSize list) := hx.trans (hfinal rfl)
  refine ⟨u, hu, fun r hr => ?_, ?_⟩
  · have hr15 : r ≠ 15 := fun e => by rw [e] at hr; exact absurd (hpc.symm.trans hr) (by decide)
    have hrrn : r ≠ rn := fun e => by rw [e, hbase] at hr; cases hr
    rw [hlisted r hr15 hr, hmem']
    refine read32_eq_of_bytes fun j hj => ?_
    have hbyte := hstored r hr j hj
    rw [blockStored, if_neg hr15, if_neg fun h => hrrn h.1] at hbyte
    rw [Block.addr, Block.start, hlow]
    exact hbyte
  · rw [hback rfl hbase, Block.final, if_pos rfl, hlow, BitVec.sub_add_cancel]

/-- PUSH and POP without r14 and r15 name the same list: the low registers alone. -/
theorem pushed_eq_popped (rlist : BitVec 8) : pushed false rlist = popped false rlist := by
  revert rlist
  decide

theorem popped_ne_zero {rlist : BitVec 8} (h : rlist ≠ 0) : popped false rlist ≠ 0 := by
  revert rlist
  decide

theorem not_popped_high (rlist : BitVec 8) :
    (popped false rlist).getLsbD 13 = false ∧ (popped false rlist).getLsbD 15 = false := by
  revert rlist
  decide

theorem popped_lowReg (rlist : BitVec 8) (r : LowReg) :
    (popped false rlist).getLsbD (lowReg r).val = rlist.getLsbD r.val := by
  revert rlist r
  decide

/-- Settles O51. -/
theorem stackRoundTrip : Obligations.StackRoundTrip := by
  intro s hmem
  refine ⟨fun rn list hrn hlist hbase hpc =>
    store_then_load hmem hrn hlist hbase hpc (.inl rfl) (.inl rfl), fun rlist hlist => ?_⟩
  obtain ⟨hsp, hpc⟩ := not_popped_high rlist
  have hpush : IsBlockStore (.tPush false rlist) ⟨.al, true, false, true, 13, popped false rlist⟩ :=
    .inr (.inl ⟨false, rlist, rfl, by rw [pushed_eq_popped]⟩)
  have hpop : IsBlockLoad (.tPop false rlist) ⟨.al, false, true, true, 13, popped false rlist⟩ :=
    .inr (.inl ⟨false, rlist, rfl, rfl⟩)
  obtain ⟨t, ht, hthen⟩ := store_then_load hmem (by decide) (popped_ne_zero hlist) hsp hpc hpush hpop
  refine ⟨t, ht, fun t' hmem' hmode hx => ?_⟩
  obtain ⟨u, hu, hlisted, hback⟩ := hthen t' hmem' hmode hx
  exact ⟨u, hu, fun r hr => hlisted (lowReg r) ((popped_lowReg rlist r).trans hr), hback⟩

end Sys2Proof.Machine
end

section
/-! THUMB arithmetic, logic and moves (spec/47_thumb_alu.md R320 to R364). -/

namespace Sys2Proof.Machine

open Sys2Proof.Claims

/-! ## Offsets in integers -/

theorem twoPow_eq_ofInt (k : Nat) : BitVec.twoPow 32 k = BitVec.ofInt 32 (2 ^ k) := by
  rw [show (2 ^ k : Int) = ((2 ^ k : Nat) : Int) by push_cast; rfl, BitVec.ofInt_natCast]
  apply BitVec.eq_of_toNat_eq
  rw [BitVec.toNat_twoPow, BitVec.toNat_ofNat]

/-- A shift to the left multiplies, modulo `2 ^ 32`. -/
theorem shiftLeft_eq_ofInt (x : Word) (n : Int) (hx : x = BitVec.ofInt 32 n) (k : Nat) :
    x <<< k = BitVec.ofInt 32 (2 ^ k * n) := by
  rw [BitVec.shiftLeft_eq_mul_twoPow, BitVec.ofInt_mul, twoPow_eq_ofInt, hx, BitVec.mul_comm]

theorem scaled_eq_ofInt {n : Nat} (imm : BitVec n) (k : Nat) : scaled imm k = BitVec.ofInt 32 (2 ^ k * imm.toNat) :=
  shiftLeft_eq_ofInt _ _ (by rw [BitVec.ofInt_natCast, BitVec.ofNat_toNat]) k

theorem signExtend_shiftLeft {n : Nat} (offset : BitVec n) (k : Nat) :
    offset.signExtend 32 <<< k = BitVec.ofInt 32 (2 ^ k * offset.toInt) := shiftLeft_eq_ofInt _ _ rfl k

theorem add_ofInt (a : Word) (n : Int) : a + BitVec.ofInt 32 n = BitVec.ofInt 32 (unsigned a + n) := by
  rw [BitVec.ofInt_add, ofInt_unsigned]

theorem sub_ofInt (a : Word) (n : Int) : a - BitVec.ofInt 32 n = BitVec.ofInt 32 (unsigned a - n) := by
  rw [Int.sub_eq_add_neg, BitVec.ofInt_add, BitVec.ofInt_neg, ofInt_unsigned, BitVec.sub_eq_add_neg]

theorem add_scaled (a : Word) {n : Nat} (imm : BitVec n) (k : Nat) :
    a + scaled imm k = BitVec.ofInt 32 (unsigned a + 2 ^ k * imm.toNat) := by rw [scaled_eq_ofInt, add_ofInt]

/-! ## Results and flags -/

variable {s : State} {i : Instr}

/-- A result in a low register with its flags, in the terms of data processing: THUMB shares its results and flags. -/
theorem lowResult_answers {rd : LowReg} (op : DpOp) (p q : Word) (sc : Bool)
    (h : exec i s = .next ((s.setX (lowReg rd) (dpResult op p q sc s.cpsr.flags).1).setFlags
      (dpResult op p q sc s.cpsr.flags).2)) :
    Answers i s fun t => t.x (lowReg rd) = dataValue op p q s.cpsr.c ∧
      FlagsAre t (negative (dataValue op p q s.cpsr.c)) (isZero (dataValue op p q s.cpsr.c))
        (dataCarry op p q s.cpsr.c sc) (dataOverflow op p q s.cpsr.c s.cpsr.v) ∧ Quiet s t [.gen (lowReg rd)] := by
  rw [dpResult_eq] at h
  rw [← cell_lowReg s.mode]
  exact ⟨_, h, result_effect s (lowReg rd) _ true (flagsOf _ _ _)⟩

/-- Flags alone. -/
theorem flags_answers (op : DpOp) (p q : Word) (sc : Bool)
    (h : exec i s = .next (s.setFlags (dpResult op p q sc s.cpsr.flags).2)) :
    Answers i s fun t => FlagsAre t (negative (dataValue op p q s.cpsr.c)) (isZero (dataValue op p q s.cpsr.c))
        (dataCarry op p q s.cpsr.c sc) (dataOverflow op p q s.cpsr.c s.cpsr.v) ∧ Quiet s t [] := by
  rw [dpResult_eq] at h
  exact ⟨_, h, ⟨rfl, rfl, rfl, rfl⟩, quiet_setFlags s _⟩

/-- A value with N and Z from it and a carry of its own is a move with that shifter carry. -/
theorem lowShift_answers {rd : LowReg} {r : Word} {carry : Bool} (h : exec i s = s.thumbShift rd (r, carry)) :
    Answers i s fun t => t.x (lowReg rd) = r ∧ FlagsAre t (negative r) (isZero r) carry s.cpsr.v ∧
      Quiet s t [.gen (lowReg rd)] := lowResult_answers .mov 0 r carry h

/-- Settles O54. -/
theorem thumbLogicAndShift : Obligations.ThumbLogicAndShift := by
  intro s rs rd amount imm8 a b cin writes
  have himm : BitVec.ofNat 32 imm8.toNat = imm8.setWidth 32 := BitVec.ofNat_toNat ..
  refine ⟨lowShift_answers rfl, lowShift_answers rfl, lowShift_answers rfl, lowShift_answers rfl, lowShift_answers rfl,
    lowShift_answers rfl, lowShift_answers rfl, lowShift_answers (himm ▸ rfl), lowShift_answers rfl, lowShift_answers rfl,
    lowShift_answers rfl, lowShift_answers rfl, lowShift_answers rfl, ?product, flags_answers .tst a b cin rfl⟩
  case product =>
    rw [← mul_eq_ofNat]
    exact lowShift_answers rfl

/-- Settles O55. -/
theorem thumbArithmetic : Obligations.ThumbArithmetic := by
  intro s rn rs rd imm3 imm8 hd hs n a b cin i3 i8 flags writes compares
  have h3 : i3 = imm3.setWidth 32 := BitVec.ofNat_toNat ..
  have h8 : i8 = imm8.setWidth 32 := BitVec.ofNat_toNat ..
  refine ⟨lowResult_answers .add b n cin rfl, lowResult_answers .sub b n cin rfl,
    lowResult_answers .add b i3 cin (h3 ▸ rfl), lowResult_answers .sub b i3 cin (h3 ▸ rfl),
    lowResult_answers .add a i8 cin (h8 ▸ rfl), lowResult_answers .sub a i8 cin (h8 ▸ rfl),
    lowResult_answers .adc a b cin rfl, lowResult_answers .sbc a b cin rfl, lowResult_answers .sub 0 b cin rfl,
    flags_answers .sub a i8 cin (h8 ▸ rfl), flags_answers .sub a b cin rfl, flags_answers .add a b cin rfl, ?high⟩
  case high =>
    rw [← State.hiReg_eq, ← State.hiReg_eq]
    exact flags_answers .sub (s.hiReg hd) (s.hiReg hs) cin rfl

/-! ## Moves and addresses -/

/-- A register write alone. -/
theorem setX_answers {d : Reg} {r : Word} (h : exec i s = .next (s.setX d r)) :
    Answers i s fun t => t.x d = r ∧ SameFlags s t ∧ Quiet s t [cell s.mode d] :=
  ⟨_, h, (State.x_setX ..).trans (if_pos rfl), sameFlags_of_cpsr rfl, quiet_setX s d r⟩

/-- A branch in THUMB state. -/
theorem thumbBranch_answers {r : Word} (ht : s.cpsr.t = true) (h : exec i s = .next (s.branchTo r)) :
    Answers i s fun t => t.pc = r &&& ~~~1#32 ∧ SameFlags s t ∧ SameControl s t ∧ Frame s t [.gen 15] [] true ∧
      SameBytes s t := by
  refine ⟨_, h, ?_, sameFlags_of_cpsr rfl, sameControl_of_cpsr rfl, (Frame.refl s).branchTo r, sameBytes_of_mem rfl⟩
  rw [State.pc_branchTo, ht]
  rfl

/-- Settles O56. -/
theorem thumbMovesAndAddresses : Obligations.ThumbMovesAndAddresses := by
  intro s hd hs rd word8 sword7 writes jumps sum pcBase
  have hadd : exec (.tAddHi hd hs) s = .next (s.writeReg hd sum) := by
    rw [show sum = _ from ofInt_unsigned_add _ _, ← State.hiReg_eq, ← State.hiReg_eq]
    rfl
  have hmov : exec (.tMovHi hd hs) s = .next (s.writeReg hd (formFiveReg s hs)) := by
    rw [← State.hiReg_eq]
    rfl
  have hup (base : Word) {k : Nat} (imm : BitVec k) :
      BitVec.ofInt 32 (unsigned base + 4 * imm.toNat) = base + scaled imm 2 := (add_scaled base imm 2).symm
  have hdown : BitVec.ofInt 32 (unsigned (s.x 13) - 4 * sword7.toNat) = s.x 13 - scaled sword7 2 := by
    rw [scaled_eq_ofInt, sub_ofInt]
    rfl
  refine ⟨fun hne => ?register, fun hpc => ?pc, setX_answers (hup .. ▸ rfl), setX_answers (hup .. ▸ rfl),
    setX_answers (hup .. ▸ rfl), setX_answers (hdown ▸ rfl)⟩
  case register =>
    rw [State.writeReg, if_neg hne] at hadd hmov
    exact ⟨setX_answers hadd, setX_answers hmov⟩
  case pc =>
    rw [State.writeReg, if_pos hpc] at hadd hmov
    exact ⟨fun ht => thumbBranch_answers ht hadd, fun ht => thumbBranch_answers ht hmov⟩

end Sys2Proof.Machine
end

section
/-! THUMB loads and stores (spec/48_thumb_mem_branch.md R370 to R392). -/

namespace Sys2Proof.Machine

open Sys2Proof.Claims

variable {s : State} {i : Instr}

theorem thumbLoad_answers {k : LoadKind} {rd : LowReg} {a a' : Word} (ha : a' = a) (h : exec i s = s.thumbLoad k rd a) :
    Answers i s fun t => Loaded k s a' (t.x (lowReg rd)) ∧ SameFlags s t ∧ SameControl s t ∧ SameBytes s t ∧
      Frame s t [.gen (lowReg rd)] [.read (loadWidth k a') a'] false := by
  subst ha
  have hframe := ((Frame.refl s).load k a').setX (lowReg rd) (s.load k a').1
  rw [cell_lowReg] at hframe
  refine ⟨_, h, ?_, sameFlags_of_cpsr rfl, sameControl_of_cpsr rfl, sameBytes_of_mem rfl, hframe⟩
  rw [State.x_setX, if_pos rfl]
  exact State.loaded_load k s a'

theorem thumbStore_answers (hmem : s.mem.wf = true) {w : Width} {rd : LowReg} {a a' : Word} (ha : a' = a)
    (h : exec i s = s.thumbStore w rd a) :
    Answers i s fun t => StoredBytes s t w a' (s.x (lowReg rd)) ∧ SameFlags s t ∧ SameControl s t ∧
      Frame s t [] [.write w (storeAddr w a')
        (BitVec.setWidth 32 (BitVec.setWidth (8 * widthBytes w) (s.x (lowReg rd))))] false := by
  subst ha
  exact ⟨_, h, State.storedBytes_busWrite hmem w a' _, sameFlags_of_cpsr rfl, sameControl_of_cpsr rfl,
    (Frame.refl s).busWrite w a' _⟩

/-- The address of a form with an immediate, scaled by its width. -/
theorem sum_eq_add_scaled (a : Word) {n : Nat} (imm : BitVec n) (k : Nat) :
    BitVec.ofInt 32 (unsigned a + (2 ^ k * imm.toNat : Nat)) = a + scaled imm k := by
  rw [add_scaled]
  push_cast
  rfl

theorem sum_one_eq_add_scaled (a : Word) {n : Nat} (imm : BitVec n) :
    BitVec.ofInt 32 (unsigned a + imm.toNat) = a + scaled imm 0 := by
  rw [← sum_eq_add_scaled, Nat.pow_zero, Nat.one_mul]

/-- Settles O57. -/
theorem thumbLoads : Obligations.ThumbLoads := by
  intro s ro rb rd offset5 word8 sum b o loads
  have hreg : sum b o = b + s.x (lowReg ro) := ofInt_unsigned_add b (s.x (lowReg ro))
  exact ⟨thumbLoad_answers (sum_eq_add_scaled _ word8 2) rfl, thumbLoad_answers hreg rfl, thumbLoad_answers hreg rfl,
    thumbLoad_answers hreg rfl, thumbLoad_answers hreg rfl, thumbLoad_answers hreg rfl,
    thumbLoad_answers (sum_eq_add_scaled b offset5 2) rfl, thumbLoad_answers (sum_one_eq_add_scaled b offset5) rfl,
    thumbLoad_answers (sum_eq_add_scaled b offset5 1) rfl, thumbLoad_answers (sum_eq_add_scaled _ word8 2) rfl⟩

/-- Settles O58. -/
theorem thumbStores : Obligations.ThumbStores := by
  intro s ro rb rd offset5 word8 hmem sum b o v stores
  have hreg : sum b o = b + s.x (lowReg ro) := ofInt_unsigned_add b (s.x (lowReg ro))
  exact ⟨thumbStore_answers hmem hreg rfl, thumbStore_answers hmem hreg rfl, thumbStore_answers hmem hreg rfl,
    thumbStore_answers hmem (sum_eq_add_scaled b offset5 2) rfl,
    thumbStore_answers hmem (sum_one_eq_add_scaled b offset5) rfl,
    thumbStore_answers hmem (sum_eq_add_scaled b offset5 1) rfl,
    thumbStore_answers hmem (sum_eq_add_scaled _ word8 2) rfl⟩

end Sys2Proof.Machine
end

section
/-! Branches with exchange, and the THUMB branches (spec/46_arm_branch_swi.md R303, R304; spec/47_thumb_alu.md R356;
spec/48_thumb_mem_branch.md R410 to R421). -/

namespace Sys2Proof.Claims

open Sys2Proof.Machine

/-- An exchange is a branch from another CPSR. -/
theorem Frame.exchangeTo {s t : State} {written : List Cell} {calls : List BusCall} {branched : Bool}
    (h : Frame s t written calls branched) (a : Word) : Frame s (t.exchangeTo a) (.gen 15 :: written) calls true :=
  (h.setCpsr _).branchTo a

end Sys2Proof.Claims

namespace Sys2Proof.Machine

open Sys2Proof.Claims

variable {s u : State} {i : Instr}

theorem State.pc_exchangeTo (s : State) (a : Word) :
    (s.exchangeTo a).pc = if a.getLsbD 0 then a &&& ~~~1#32 else a &&& ~~~3#32 :=
  (s.getCell_exchangeTo a _).trans (if_pos rfl)

theorem State.x_exchangeTo (s : State) {r : Reg} (h : r ≠ 15) (a : Word) : (s.exchangeTo a).x r = s.x r :=
  State.x_branchTo _ h a

/-- What an exchange leaves after a state that differs from the first in registers alone. -/
theorem exchangeTo_effect {link : List Cell} (hframe : Frame s u link [] false) (hcpsr : u.cpsr = s.cpsr)
    (hmem : u.mem = s.mem) (target : Word) :
    let t := u.exchangeTo target
    t.cpsr.t = target.getLsbD 0 ∧
    (t.pc = if target.getLsbD 0 then target &&& ~~~1#32 else target &&& ~~~3#32) ∧
    SameFlags s t ∧ t.cpsr.i = s.cpsr.i ∧ t.cpsr.f = s.cpsr.f ∧ t.cpsr.m = s.cpsr.m ∧
    Frame s t (.gen 15 :: link) [] true ∧ SameBytes s t := by
  intro t
  have ht : t.cpsr = { s.cpsr with t := target.getLsbD 0 } := by rw [← hcpsr]; rfl
  rw [SameFlags, FlagsAre, ht]
  exact ⟨rfl, u.pc_exchangeTo target, ⟨rfl, rfl, rfl, rfl⟩, rfl, rfl, rfl, hframe.exchangeTo target, sameBytes_of_mem hmem⟩

/-- Settles O53. -/
theorem branchExchange : Obligations.BranchExchange := by
  intro s c rn hc effect operand
  refine ⟨⟨_, State.ifCond_pass hc _, exchangeTo_effect (Frame.refl s) rfl rfl operand⟩, fun hblx => ?link,
    ⟨_, ?thumb, exchangeTo_effect (Frame.refl s) rfl rfl (formFiveReg s rn)⟩⟩
  case link =>
    refine ⟨_, (State.ifCond_pass hc _).trans (if_pos hblx),
      exchangeTo_effect ((Frame.refl s).setX 14 (s.now.ia + 4)) rfl rfl operand, ?_⟩
    exact (State.x_exchangeTo _ (by decide) _).trans ((State.x_setX ..).trans (if_pos rfl))
  case thumb =>
    rw [← State.hiReg_eq]
    rfl

/-! ## THUMB -/

/-- R412, R417: the target in integers. -/
theorem thumbTarget_eq_ofInt (ia : Word) {n : Nat} (offset : BitVec n) (k : Nat) :
    ia + 4 + (offset.signExtend 32 <<< k) = BitVec.ofInt 32 (unsigned ia + 4 + 2 ^ k * offset.toInt) := by
  rw [signExtend_shiftLeft, BitVec.ofInt_add, BitVec.ofInt_add, ofInt_unsigned]
  rfl

/-- A THUMB conditional branch whose condition is `taken`. -/
theorem thumbCondBranch_answers {c : Cond} {taken : Bool} {soffset8 : BitVec 8} (ht : s.cpsr.t = true)
    (hc : condPassed c s.cpsr.flags = taken) (h : exec i s = s.thumbCondBranch c soffset8) :
    (taken = true → Answers i s fun t =>
      t.pc = BitVec.ofInt 32 (unsigned s.now.ia + 4 + 2 * soffset8.toInt) &&& ~~~1#32 ∧
      SameFlags s t ∧ SameControl s t ∧ Frame s t [.gen 15] [] true ∧ SameBytes s t) ∧
    (taken = false → exec i s = .next s) := by
  subst hc
  constructor
  · intro hpass
    rw [State.thumbCondBranch, State.ifCond_pass hpass] at h
    exact thumbBranch_answers ht (h.trans (thumbTarget_eq_ofInt s.now.ia soffset8 1 ▸ rfl))
  · intro hfail
    exact h.trans (State.ifCond_fail (Bool.eq_false_iff.1 hfail) _)

/-- Settles O59. -/
theorem thumbBranches : Obligations.ThumbBranches := by
  intro s soffset8 offset11 ht jumps branches n z c v
  have hne : (n != v) = decide (n ≠ v) := decide_not.symm
  refine ⟨thumbCondBranch_answers (c := .eq) ht rfl rfl, thumbCondBranch_answers (c := .ne) ht rfl rfl,
    thumbCondBranch_answers (c := .cs) ht rfl rfl, thumbCondBranch_answers (c := .cc) ht rfl rfl,
    thumbCondBranch_answers (c := .mi) ht rfl rfl, thumbCondBranch_answers (c := .pl) ht rfl rfl,
    thumbCondBranch_answers (c := .vs) ht rfl rfl, thumbCondBranch_answers (c := .vc) ht rfl rfl,
    thumbCondBranch_answers (c := .hi) ht rfl rfl, thumbCondBranch_answers (c := .ls) ht rfl rfl,
    thumbCondBranch_answers (c := .ge) ht rfl rfl,
    thumbCondBranch_answers (c := .lt) ht hne rfl,
    thumbCondBranch_answers (c := .gt) ht rfl rfl,
    thumbCondBranch_answers (c := .le) ht (congrArg (z || ·) hne) rfl, ?_⟩
  exact thumbBranch_answers ht (thumbTarget_eq_ofInt s.now.ia offset11 1 ▸ rfl)

/-- Settles O60. -/
theorem thumbBranchLink : Obligations.ThumbBranchLink := by
  intro s offset11
  have htarget : BitVec.ofInt 32 (unsigned (s.x 14) + 2 * offset11.toNat) = s.x 14 + scaled offset11 1 :=
    (add_scaled (s.x 14) offset11 1).symm
  have hlink (t : State) (r a : Word) : ((t.setX 14 r).branchTo a).x 14 = r :=
    (State.x_branchTo _ (by decide) a).trans ((State.x_setX ..).trans (if_pos rfl))
  have hframe := (Frame.refl s).setX 14 ((s.now.ia + 2) ||| 1#32)
  refine ⟨setX_answers (thumbTarget_eq_ofInt s.now.ia offset11 12 ▸ rfl), fun ht => ?low, fun hblx => ?exchange⟩
  case low =>
    refine ⟨_, rfl, ?_, hlink s _ _, sameFlags_of_cpsr rfl, sameControl_of_cpsr rfl, hframe.branchTo _,
      sameBytes_of_mem rfl⟩
    rw [State.pc_branchTo, State.setX_cpsr, ht, htarget]
    rfl
  case exchange =>
    refine ⟨_, if_pos hblx, ?_, hlink { s with cpsr := { s.cpsr with t := false } } _ _, ⟨rfl, rfl, rfl, rfl⟩, rfl, rfl,
      rfl, rfl, (hframe.setCpsr _).branchTo _, sameBytes_of_mem rfl⟩
    rw [State.pc_branchTo, htarget]
    rfl

end Sys2Proof.Machine
end
